-- ==== Sys2Proof/Word.lean ====
section
/-! DEFINITION. The two word sizes of the HB-410: octets on a line and in a telegram, and the
sixteen-bit quantities (settings in milliseconds, counters, the check register, register offsets). -/

namespace Sys2Proof

/-- One octet, as a line carries it (R1) and as a telegram field holds it (R4). -/
abbrev Octet := BitVec 8

/-- A number of two octets (R8): a setting, a counter (R166), the check register (R9). -/
abbrev Word := BitVec 16

end Sys2Proof
end

