-- ==== Sys2Proof/Syntax.lean ====
section
/-! DEFINITION. The commands of the HB-410: one constructor of `Instr` for each row of
spec/opcode_table.json, with the operands that the row's rule gives the event. A command that brings
a telegram carries the telegram's fields, so that every Body, right or wrong, can be written. -/

namespace Sys2Proof

/-- A line, by its number: 0 is the trunk, 1 to 4 are the branches (spec/00_scope.md section 6). -/
abbrev Line := Fin 5

/-- A branch line. The number of the line is the index plus 1: index 0 is branch 1. -/
abbrev Branch := Fin 4

/-- A record slot of the exchange table, 0 to 15 (R20). -/
abbrev SlotId := Fin 16

/-- The six kinds of telegram (R6). -/
inductive Kind where
  | req | ans | fault | held | collect | wait
  deriving DecidableEq, Repr

/-- A telegram as a framer hands it over, without Lead, Length and Check (R4, R14). -/
structure Telegram where
  dest   : Octet
  source : Octet
  kind   : Kind
  seq    : Octet
  code   : Octet
  body   : List Octet
  deriving DecidableEq, Repr

/-- What makes an echo mismatch (R18). -/
inductive EchoFault where
  /-- an echo whose data bits differ from the octet sent -/
  | dataDiffers
  /-- an echo whose stop-bit position is sampled as 0 -/
  | stopBitLow
  /-- no echo received by the time the window closes -/
  | missing
  /-- an octet received while no echo is expected -/
  | unexpected
  deriving DecidableEq, Repr

/-- What puts the part in hard reset (R186). -/
inductive ResetCause where
  /-- VDD below its operating range -/
  | supplyLow
  /-- RESET_N held low for this many nanoseconds -/
  | pinLow (nanoseconds : Nat)
  deriving DecidableEq, Repr

/-- The commands, one for each row of spec/opcode_table.json, in the table's order. -/
inductive Instr where
  /-- RESET_ASSERT (R186). -/
  | resetAssert (cause : ResetCause)
  /-- RESET_RELEASE (R129, R186): RESET_N goes high; the straps' sampled levels, AS0 and RS0 lowest. -/
  | resetRelease (address : BitVec 6) (rate : BitVec 3)
  /-- POWER_ON_RELEASE (R186): the detector lets go; the straps' sampled levels. -/
  | powerOnRelease (address : BitVec 6) (rate : BitVec 3)
  /-- BAD_LENGTH (R10): the octet received as the Length. -/
  | badLength (line : Line) (octet : Octet)
  /-- GAP_TIMER_EXPIRY (R12). -/
  | gapTimerExpiry (line : Line)
  /-- RECEPTION_COMPLETION (R11): the last Check octet. -/
  | receptionCompletion (line : Line) (octet : Octet)
  /-- ADMISSION (R28): the REQ's Source, Dest, Seq, Code and Body. -/
  | admission (source target seq code : Octet) (body : List Octet)
  /-- COLLECT (R45): the COLLECT's Source, Seq, Code and one Body octet. -/
  | collect (source seq ticket opening : Octet)
  /-- BROADCAST_RELAY (R133): the Source, Seq, Code and Body of a REQ with Dest 0. -/
  | broadcastRelay (source seq code : Octet) (body : List Octet)
  /-- IGNORED (R135): any valid telegram on the trunk. -/
  | ignored (telegram : Telegram)
  /-- UNSUPPORTED (R147): the Source, Seq, Code and Body of a REQ to the own address. -/
  | unsupported (source seq code : Octet) (body : List Octet)
  /-- IDENTIFY, 0x80 (R151). -/
  | identify (source seq : Octet) (body : List Octet)
  /-- READ_SLOT, 0x81 (R152). -/
  | readSlot (source seq : Octet) (body : List Octet)
  /-- WRITE_SLOT, 0x82 (R83). -/
  | writeSlot (source seq : Octet) (body : List Octet)
  /-- CLEAR_SLOT, 0x83 (R84). -/
  | clearSlot (source seq : Octet) (body : List Octet)
  /-- READ_PROFILE, 0x84 (R153). -/
  | readProfile (source seq : Octet) (body : List Octet)
  /-- WRITE_PROFILE, 0x85 (R85). -/
  | writeProfile (source seq : Octet) (body : List Octet)
  /-- COMMIT, 0x86 (R89). -/
  | commit (source seq : Octet) (body : List Octet)
  /-- RETIRE, 0x87 (R92). -/
  | retire (source seq : Octet) (body : List Octet)
  /-- READ_LINE, 0x88 (R155). -/
  | readLine (source seq : Octet) (body : List Octet)
  /-- WRITE_LINE, 0x89 (R156). -/
  | writeLine (source seq : Octet) (body : List Octet)
  /-- READ_RECORDS, 0x8A (R157). -/
  | readRecords (source seq : Octet) (body : List Octet)
  /-- CANCEL, 0x8B (R42). -/
  | cancel (source seq : Octet) (body : List Octet)
  /-- READ_COUNTERS, 0x8C (R159). -/
  | readCounters (source seq : Octet) (body : List Octet)
  /-- RESTART, 0x8D (R161). -/
  | restart (source seq : Octet) (body : List Octet)
  /-- TURNAROUND_EXPIRY (R138). -/
  | turnaroundExpiry
  /-- TRUNK_TRANSMIT_COMPLETION (R137). -/
  | trunkTransmitCompletion
  /-- BRANCH_TRANSMIT_COMPLETION (R109). -/
  | branchTransmitCompletion (branch : Branch)
  /-- ECHO_MISMATCH (R110). -/
  | echoMismatch (branch : Branch) (cause : EchoFault)
  /-- ANSWER_WINDOW_EXPIRY (R111). -/
  | answerWindowExpiry (branch : Branch)
  /-- BRANCH_TELEGRAM (R112). -/
  | branchTelegram (branch : Branch) (telegram : Telegram)
  /-- SETTLE_EXPIRY (R117). -/
  | settleExpiry (branch : Branch)
  /-- LIFETIME_EXPIRY (R41). -/
  | lifetimeExpiry (slot : SlotId)
  /-- WAIT_EXPIRY (R39). -/
  | waitExpiry (slot : SlotId)
  /-- HOLD_EXPIRY (R47). -/
  | holdExpiry (slot : SlotId)
  /-- LINGER_EXPIRY (R47). -/
  | lingerExpiry (slot : SlotId)
  /-- RESEED_COMPLETION (R93). -/
  | reseedCompletion
  /-- OCTET_RECEIVED (R10): the octet and whether its stop-bit position was sampled as 1 (R1). -/
  | octetReceived (line : Line) (octet : Octet) (stopBit : Bool)
  deriving DecidableEq, Repr

end Sys2Proof
end

