-- ==== Sys2Proof/Decode.lean ====
section
/-! DEFINITION. The decoder over table words. No row of spec/opcode_table.json gives bits (its rows
have neither "fixed" nor "fields"), so no word spells a command: the commands are events and
telegrams, and the telegram's own encoding (R4, R9) is read by the framers, Machine/Operands.lean. -/

namespace Sys2Proof

/-- The command that a table word spells: none, since no row of the table gives bits. Log entry 12. -/
def decodeTableWord (_nbits _w : Nat) : Option Instr := none

end Sys2Proof
end

