-- ==== Sys2Proof/Config.lean ====
section
/-! DEFINITION. What the manual leaves open and the model leaves free. -/

namespace Sys2Proof

/-- Whether the n-th RESET_N low pulse of 1 to 10 microseconds causes a hard reset. R186 says that
"either outcome may occur", so the value has no body and no proof can lean on one. Log entry 6. -/
opaque Config.shortPulseTaken : Nat → Bool

/-- Whether the last stop bit of a branch transmission ends before the next command is taken, at the
n-th free choice. R15 and R187 have DE fall at that moment, no row of the table is it, and the rules let
it come before or after any command that comes between the last two echoes. Log entry 10. -/
opaque Config.stopBitEnds : Nat → Branch → Bool

end Sys2Proof
end

