-- ==== Sys2Proof/Machine/Parts.lean ====
section
/-! DEFINITION. The parts that State is made of, block by block, as plain data. A timer is held as the
nominal duration it was started with (R23, R188), and stands only in the states it runs in. -/

namespace Sys2Proof.Machine

/-! ### Table banks (chapters 3, 4 and 5) -/

/-- The two banks (R79). -/
inductive BankId where
  | a | b
  deriving DecidableEq, Repr

/-- The role of the bank that is not LIVE (R79). -/
inductive OtherRole where
  | staged | draining | reseeding
  deriving DecidableEq, Repr

/-- The kind of a directory slot and of the records admitted through it (R51). -/
inductive StationKind where
  | leaf | relay
  deriving DecidableEq, Repr

/-- The access mode of a directory slot (R51, R60). -/
inductive Access where
  | opened | readOnly | closed
  deriving DecidableEq, Repr

/-- The class of an operation entry (R66). -/
inductive OpClass where
  | read | write | control | refuse
  deriving DecidableEq, Repr

/-- A rate code, 0 to 5 (R2). -/
abbrev RateCode := Fin 6

/-- The seven fields of a valid directory slot (R51). -/
structure DirEntry where
  logical : Octet
  branch  : Branch
  kind    : StationKind
  node    : Octet
  profile : Fin 8
  access  : Access
  budget  : Fin 8
  deriving DecidableEq, Repr

/-- An operation entry of a profile (R66). -/
structure OpEntry where
  code : Octet
  cls  : OpClass
  deriving DecidableEq, Repr

/-- A dialect profile (R66). The offset is held in two's complement. -/
structure Profile where
  ops    : Vector OpEntry 32
  offset : Word
  faults : Vector Octet 16
  deriving DecidableEq, Repr

/-- A bank: 64 directory slots, each empty or valid (R51), and eight profiles (R66). -/
structure Bank where
  directory : Vector (Option DirEntry) 64
  profiles  : Vector Profile 8
  deriving DecidableEq, Repr

/-! ### Exchange table (chapter 2) -/

/-- A failure of an attempt (R38). -/
inductive Failure where
  | noAnswer | badAnswer | lineError
  deriving DecidableEq, Repr

/-- The result of an exchange (R22). -/
inductive Result where
  | ans (body : List Octet)
  | fault (reason : Octet) (detail : Option Octet)
  deriving DecidableEq, Repr

/-- What a HELD answer leaves in a record: collect address, downstream ticket and downstream opening
sequence, present together (R22, R37). -/
structure CollectLink where
  address : Octet
  ticket  : Octet
  opening : Octet
  deriving DecidableEq, Repr

/-- What a record asks of its branch line next (R22). The action is COLLECT exactly after a HELD
answer, so the link stands with it (R37). -/
inductive Action where
  | ask
  | collect (link : CollectLink)
  deriving DecidableEq, Repr

/-- The four active states (R22, section 2.3), with the wait timer where it runs (R23). -/
inductive ActiveState where
  | queued
  | onLine
  | backoff (wait : Word)
  | deferred (wait : Word)
  deriving DecidableEq, Repr

/-- The state of a record, with the timers that run in it (R23), the result where one is held, and the
delivery stamp in DELIVERED (R22). -/
inductive Phase where
  | active (state : ActiveState) (lifetime : Word)
  | done (result : Result) (hold : Word)
  | delivered (result : Result) (linger : Word) (stamp : Nat)
  deriving DecidableEq, Repr

/-- The outbound request of a record (R22, R57, R58). -/
structure Outbound where
  dest : Octet
  code : Octet
  body : List Octet
  deriving DecidableEq, Repr

/-- A record outside FREE (R22). Its ticket is the issue of its slot and the slot number (R20). -/
structure Record where
  opener     : Octet
  opening    : Octet
  headCode   : Octet
  target     : Octet
  bank       : BankId
  dirSlot    : Fin 64
  branch     : Branch
  kind       : StationKind
  outbound   : Outbound
  action     : Action
  branchSeq  : Option Octet
  retries    : Nat
  failure    : Option Failure
  admitStamp : Nat
  phase      : Phase
  deriving DecidableEq, Repr

/-- A record slot: its issue counter, kept whether it is FREE or not, and its record (R20). -/
structure TableSlot where
  issue  : BitVec 4
  record : Option Record
  deriving DecidableEq, Repr

/-! ### Line framers (chapter 1) -/

/-- What a framer is doing: its receiver's three states (section 1.5), with the telegram in progress
and the gap timer (3 octet times, R12) in LENGTH and BODY, or a transmission (R15, R17). -/
inductive FramerMode where
  | hunt
  | length (crc : Word) (gap : Nat)
  /-- `octets` are those received since the Lead, Length first; `toCome` counts the rest (R11). -/
  | body (octets : List Octet) (toCome : Nat) (crc : Word) (gap : Nat)
  /-- `octets` are those of the telegram sent, Lead first; `echoes` are those whose echo is still
  expected, on a branch line (R18), and none on the trunk. -/
  | transmitting (octets : List Octet) (echoes : List Octet)
  deriving DecidableEq, Repr

/-- What a TXD output does: it is driven high, or it follows the bits of a telegram, in their order on
the line (R187). -/
inductive TxdOutput where
  | high
  | follows (bits : List Bool)
  deriving DecidableEq, Repr

/-- A line framer: its current rate (R2) and what it is doing. -/
structure Framer where
  rate : RateCode
  mode : FramerMode
  deriving DecidableEq, Repr

/-! ### Trunk port (chapter 7) -/

/-- The answer buffer (R137), with the turnaround timer (2 octet times, R138) where it runs. -/
inductive AnswerBuffer where
  | empty
  | turnaround (answer : Telegram) (octetTimes : Nat)
  | sending (answer : Telegram)
  deriving DecidableEq, Repr

/-! ### Branch line controllers (chapter 6) -/

/-- The seven settings of a branch (R99). -/
structure Settings where
  enable   : Bool
  rate     : RateCode
  window   : Word
  delay    : Word
  interval : Word
  lifetime : Word
  quota    : Octet
  deriving DecidableEq, Repr

/-- A broadcast held for relay (R125). -/
structure Broadcast where
  code : Octet
  body : List Octet
  deriving DecidableEq, Repr

/-- What an attempt of a record or an orphan looks for: its action, its kind, the expected source and,
for a COLLECT, the downstream ticket (R106). -/
inductive Sought where
  | ask (kind : StationKind) (source : Octet)
  | collect (kind : StationKind) (source : Octet) (ticket : Octet)
  deriving DecidableEq, Repr

/-- An attempt of holder RECORD (`record` is some slot) or ORPHAN (`record` is none) (R106). -/
structure Exchange where
  record : Option SlotId
  seq    : Octet
  sought : Sought
  deriving DecidableEq, Repr

/-- The current attempt of a line (R106). -/
inductive Attempt where
  | exchange (x : Exchange)
  | broadcast (seq : Octet)
  deriving DecidableEq, Repr

/-- The six line states (R102), with the current attempt in SENDING and LISTENING, the answer-window
timer in LISTENING (R111) and the settle timer (4 octet times, R117) in SETTLING. -/
inductive LineState where
  | off
  | faulted
  | idle
  | sending (attempt : Attempt)
  | listening (x : Exchange) (window : Word)
  | settling (octetTimes : Nat)
  deriving DecidableEq, Repr

/-- A branch line controller (R98). The rate its framer uses stands in the framer. -/
structure BranchLine where
  state       : LineState
  settings    : Settings
  pendingRate : Option RateCode
  queue       : List SlotId
  broadcast   : Option Broadcast
  seq         : Octet
  errors      : Nat
  deriving DecidableEq, Repr

/-! ### Counters (chapter 9) -/

/-- The ten counters of line 0 (R166), in the order of R159. -/
inductive TrunkCounter where
  | rxCheck | rxTorn | rxMalformed | ignored | admitted | duplicates | refused | overrun
  | unclaimed | collects
  deriving DecidableEq, Repr

/-- The eleven counters of a branch line (R166), in the order of R159. -/
inductive BranchCounter where
  | sent | noAnswer | badAnswer | lineErrors | strays | rxCheck | rxTorn | rxMalformed | orphans
  | bcastSent | bcastDropped
  deriving DecidableEq, Repr

end Sys2Proof.Machine
end

