-- ==== Sys2Proof/Machine/ResetValues.lean ====
section
/-! DEFINITION. The values that the parts take at hard reset, chapter by chapter. -/

namespace Sys2Proof.Machine

/-- The branch settings after hard reset, the defaults of R99 (R127). -/
def defaultSettings : Settings where
  enable   := true
  rate     := 4
  window   := 50
  delay    := 100
  interval := 200
  lifetime := 5000
  quota    := 4

/-- A branch line controller after hard reset (R127). -/
def resetLine : BranchLine where
  state       := .idle
  settings    := defaultSettings
  pendingRate := none
  queue       := []
  broadcast   := none
  seq         := 0
  errors      := 0

/-- A framer after hard reset, at a rate: HUNT, nothing in progress (R19). -/
def resetFramer (rate : RateCode) : Framer := { rate := rate, mode := .hunt }

/-- The class of operation entry n at the reset content (R78). -/
def resetClass (n : Nat) : OpClass :=
  if n < 8 then .read else if n < 16 then .write else .control

/-- The reset content of a profile (R78). -/
def resetProfile : Profile where
  ops    := Vector.ofFn fun n : Fin 32 => { code := BitVec.ofNat 8 n.val, cls := resetClass n.val }
  offset := 0
  faults := Vector.ofFn fun r : Fin 16 => BitVec.ofNat 8 r.val

/-- A bank after hard reset: 64 empty slots (R64) and eight profiles at the reset content (R78). -/
def resetBank : Bank where
  directory := Vector.replicate 64 none
  profiles  := Vector.replicate 8 resetProfile

/-- A record slot after hard reset: FREE, issue 0 (R49). -/
def resetSlot : TableSlot := { issue := 0, record := none }

/-- The hold time after hard reset (R141, R143). -/
def defaultHold : Word := 30000

/-- The linger time after hard reset (R141, R143). -/
def defaultLinger : Word := 2000

/-- The own address that the address straps select: their value, and 250 for the value 0 (R129). -/
def strapAddress (straps : BitVec 6) : Octet :=
  if straps = 0 then 250 else straps.setWidth 8

/-- The rate code that the rate straps select: their value, and 0 for the values 6 and 7 (R2). -/
def strapRate (straps : BitVec 3) : RateCode :=
  match straps.toNat with
  | 1 => 1
  | 2 => 2
  | 3 => 3
  | 4 => 4
  | 5 => 5
  | _ => 0

/-- The address straps left open: the pull-ups make each input read as 1 (R186). -/
def openAddressStraps : BitVec 6 := 0b111111

/-- The rate straps left open (R186). -/
def openRateStraps : BitVec 3 := 0b111

end Sys2Proof.Machine
end

