-- ==== Sys2Proof/Machine/State.lean ====
section
/-! DEFINITION. The state of the HB-410, whole, as plain data, and the state right after hard reset. -/

namespace Sys2Proof.Machine

/-- Everything the part holds, and the queue of the commands that wait for it. -/
structure State where
  /-- RESET_N holds the part in hard reset (R186). -/
  pinReset : Bool
  /-- The power-on detector holds the part in hard reset (R186). -/
  supplyReset : Bool
  /-- The own station address, sampled from the straps (R129). -/
  ownAddress : Octet
  /-- The five line framers (chapter 1); the rate of framer 0 is the trunk rate (R2). -/
  framers : Vector Framer 5
  /-- The driver-enable outputs DE0 to DE4; true is driven high (R187). -/
  driverEnable : Vector Bool 5
  /-- The trunk port's answer buffer (R137). -/
  answer : AnswerBuffer
  /-- The trunk hold time in milliseconds (R141). -/
  holdTime : Word
  /-- The trunk linger time in milliseconds (R141). -/
  lingerTime : Word
  /-- The sixteen record slots (R20). -/
  slots : Vector TableSlot 16
  /-- The next admission stamp, the model's form of the order of R22. -/
  nextAdmission : Nat
  /-- The next delivery stamp, the model's form of the order of R22. -/
  nextDelivery : Nat
  /-- The attention output; true is asserted, driven low (R26, R187). -/
  attn : Bool
  /-- Bank A. -/
  bankA : Bank
  /-- Bank B. -/
  bankB : Bank
  /-- Which bank is LIVE (R79). -/
  live : BankId
  /-- The role of the other bank (R79). -/
  otherRole : OtherRole
  /-- The live generation number (R80). -/
  generation : Octet
  /-- The drain count (R81). -/
  drainCount : Nat
  /-- The four branch line controllers (R98). -/
  lines : Vector BranchLine 4
  /-- The restart that waits for its answer to be sent (R161). -/
  pendingRestart : Bool
  /-- The counters of line 0, in the order of R159. -/
  trunkCounters : Vector Word 10
  /-- The counters of lines 1 to 4, in the order of R159. -/
  branchCounters : Vector (Vector Word 11) 4
  /-- The model's own: how many free choices have been made (log entries 6 and 10). -/
  freeChoices : Nat
  /-- The model's own: the commands that wait, the first first. -/
  pending : List Instr
  deriving DecidableEq, Repr

/-- Why the machine would stop. The HB-410 has no fault that stops it: its FAULT answers and results
are state (R27), and a faulted line is a line state (R122). So there is no constructor. -/
inductive Fault
  deriving DecidableEq, Repr

/-- Why a command would have no meaning. -/
inductive Refusal where
  /-- The command has no meaning yet. Raised by no arm of `exec`: every command is modelled. Safe. -/
  | notModelled (mnemonic : String)
  deriving DecidableEq, Repr

/-- The state at the release of hard reset, with the own address and the trunk rate that the straps
give (R19, R49, R64, R78, R96, R127, R143, R165, R176). -/
def State.atReset (ownAddress : Octet) (trunkRate : RateCode) : State where
  pinReset := false
  supplyReset := false
  ownAddress := ownAddress
  framers := (Vector.replicate 5 (resetFramer 4)).set 0 (resetFramer trunkRate)
  driverEnable := Vector.replicate 5 false
  answer := .empty
  holdTime := defaultHold
  lingerTime := defaultLinger
  slots := Vector.replicate 16 resetSlot
  nextAdmission := 0
  nextDelivery := 0
  attn := false
  bankA := resetBank
  bankB := resetBank
  live := .a
  otherRole := .staged
  generation := 0
  drainCount := 0
  lines := Vector.replicate 4 resetLine
  pendingRestart := false
  trunkCounters := Vector.replicate 10 0
  branchCounters := Vector.replicate 4 (Vector.replicate 11 0)
  freeChoices := 0
  pending := []

/-- The machine right after hard reset, with all straps open: own address 63 and rate code 0 (R186).
The straps belong to the board, so this choice is a DESIGN CHOICE, log entry 1. -/
def State.reset : State :=
  State.atReset (strapAddress openAddressStraps) (strapRate openRateStraps)

end Sys2Proof.Machine
end

