-- ==== Sys2Proof/Machine/Flags.lean ====
section
/-! DEFINITION. The flags and counts of the part: traffic counters (R166, R167), driver-enable outputs
(R187) and the attention output (R26), with the readings of a record's state that they rest on. -/

namespace Sys2Proof.Machine

/-! ### Lines and branches -/

/-- The line of a branch: branch index b is line b + 1. -/
def lineOf (b : Branch) : Line := b.succ

/-- The branch of a line; none for the trunk. -/
def branchOf (l : Line) : Option Branch := Fin.cases none (fun b => some b) l

/-! ### Counters -/

/-- The place of a trunk counter in the order of R159. -/
def TrunkCounter.index (c : TrunkCounter) : Fin 10 :=
  match c with
  | .rxCheck => 0
  | .rxTorn => 1
  | .rxMalformed => 2
  | .ignored => 3
  | .admitted => 4
  | .duplicates => 5
  | .refused => 6
  | .overrun => 7
  | .unclaimed => 8
  | .collects => 9

/-- The place of a branch counter in the order of R159. -/
def BranchCounter.index (c : BranchCounter) : Fin 11 :=
  match c with
  | .sent => 0
  | .noAnswer => 1
  | .badAnswer => 2
  | .lineErrors => 3
  | .strays => 4
  | .rxCheck => 5
  | .rxTorn => 6
  | .rxMalformed => 7
  | .orphans => 8
  | .bcastSent => 9
  | .bcastDropped => 10

/-- One increment of a saturating counter (R167). -/
def countUp (w : Word) : Word := if w = 0xFFFF then w else w + 1

/-- The value of a counter of line 0. -/
def State.trunkCount (s : State) (c : TrunkCounter) : Word := s.trunkCounters.get c.index

/-- The value of a counter of a branch. -/
def State.branchCount (s : State) (b : Branch) (c : BranchCounter) : Word :=
  (s.branchCounters.get b).get c.index

/-- An increment of a counter of line 0 (R166, R167). -/
def State.countTrunk (s : State) (c : TrunkCounter) : State :=
  { s with trunkCounters := s.trunkCounters.set c.index (countUp (s.trunkCount c)) }

/-- An increment of a counter of a branch (R166, R167). -/
def State.countBranch (s : State) (b : Branch) (c : BranchCounter) : State :=
  { s with
    branchCounters :=
      s.branchCounters.set b ((s.branchCounters.get b).set c.index (countUp (s.branchCount b c))) }

/-- An increment of RX_CHECK of a line (R168). -/
def State.countRxCheck (s : State) (l : Line) : State :=
  match branchOf l with
  | none => s.countTrunk .rxCheck
  | some b => s.countBranch b .rxCheck

/-- An increment of RX_TORN of a line (R168). -/
def State.countRxTorn (s : State) (l : Line) : State :=
  match branchOf l with
  | none => s.countTrunk .rxTorn
  | some b => s.countBranch b .rxTorn

/-- An increment of RX_MALFORMED of a line (R168). -/
def State.countRxMalformed (s : State) (l : Line) : State :=
  match branchOf l with
  | none => s.countTrunk .rxMalformed
  | some b => s.countBranch b .rxMalformed

/-! ### Readings of the exchange table -/

/-- The record that a slot holds; none for a FREE slot (R20). -/
def State.record (s : State) (i : SlotId) : Option Record := (s.slots.get i).record

/-- The issue counter of a slot (R20). -/
def State.issue (s : State) (i : SlotId) : BitVec 4 := (s.slots.get i).issue

/-- The state of an active record; none in DONE and DELIVERED (section 2.3). -/
def Record.activeState (r : Record) : Option ActiveState :=
  match r.phase with
  | .active st _ => some st
  | .done _ _ => none
  | .delivered _ _ _ => none

/-- In QUEUED, ON_LINE, BACKOFF or DEFERRED (section 2.3). -/
def Record.isActive (r : Record) : Bool := r.activeState.isSome

/-- In DONE. -/
def Record.isDone (r : Record) : Bool :=
  match r.phase with
  | .active _ _ => false
  | .done _ _ => true
  | .delivered _ _ _ => false

/-- Some slot holds a record of which `p` holds. -/
def State.someRecord (s : State) (p : Record → Bool) : Bool :=
  (List.finRange 16).any fun i => (s.record i).any p

/-- The number of records of which `p` holds. -/
def State.countRecords (s : State) (p : Record → Bool) : Nat :=
  (List.finRange 16).countP fun i => (s.record i).any p

/-- The active count of a branch (R24). -/
def State.activeCount (s : State) (b : Branch) : Nat :=
  s.countRecords fun r => r.isActive && r.branch == b

/-- The number of active records whose captured bank is `k` (R24). -/
def State.activeIn (s : State) (k : BankId) : Nat :=
  s.countRecords fun r => r.isActive && r.bank == k

/-! ### Outputs -/

/-- A record has completed: ATTN is asserted if it was released (R25, R26). -/
def State.assertAttention (s : State) : State := { s with attn := true }

/-- A record has left DONE: ATTN is released when it was the last (R26). -/
def State.releaseAttention (s : State) : State :=
  if s.someRecord Record.isDone then s else { s with attn := false }

/-- Drive a DE output (R187). -/
def State.setDriver (s : State) (l : Line) (high : Bool) : State :=
  { s with driverEnable := s.driverEnable.set l high }

end Sys2Proof.Machine
end

