-- ==== Sys2Proof/Machine/Telegrams.lean ====
section
/-! DEFINITION. The telegram on the line: its layout (R4, R5), its kinds (R6), its check (R9), the
structural checks of a receiving framer (R13), and numbers of two octets (R8). -/

namespace Sys2Proof.Machine

/-- The bits of an octet on a line, the first sent first: a start bit of 0, the eight data bits with
the least significant first, and a stop bit of 1 (R1). -/
def octetBits (o : Octet) : List Bool :=
  false :: ((List.finRange 8).map fun i => o.getLsb i) ++ [true]

/-- The Lead octet (R4). -/
def leadOctet : Octet := 0xC5

/-- The high octet of a two-octet number, sent first (R8). -/
def highOctet (w : Word) : Octet := w.extractLsb' 8 8

/-- The low octet of a two-octet number (R8). -/
def lowOctet (w : Word) : Octet := w.extractLsb' 0 8

/-- The two-octet number whose most significant octet is `high` (R8). -/
def wordOf (high low : Octet) : Word := high ++ low

/-- A two-octet number in a Body, most significant octet first (R8). -/
def wordOctets (w : Word) : List Octet := [highOctet w, lowOctet w]

/-- A number below 256 as one octet. -/
def octetOf (n : Nat) : Octet := BitVec.ofNat 8 n

/-- The value of a kind in the Kind field (R6). -/
def kindOctet (k : Kind) : Octet :=
  match k with
  | .req => 0x01
  | .ans => 0x02
  | .fault => 0x03
  | .held => 0x04
  | .collect => 0x05
  | .wait => 0x06

/-- The kind that a Kind field names; none outside 0x01 to 0x06 (R6, R13). -/
def kindOf (o : Octet) : Option Kind :=
  match o.toNat with
  | 1 => some .req
  | 2 => some .ans
  | 3 => some .fault
  | 4 => some .held
  | 5 => some .collect
  | 6 => some .wait
  | _ => none

/-- The check register before the Length octet (R9). -/
def crcPreset : Word := 0xFFFF

/-- One shift of the check register: left by one bit, and combined with 0x1021 where the bit shifted
out was 1 (R9). -/
def crcShift (crc : Word) : Word :=
  if crc.msb then (crc <<< 1) ^^^ 0x1021 else crc <<< 1

/-- One octet entered into the check register: combined into the high eight bits, then eight shifts
(R9). -/
def crcOctet (crc : Word) (o : Octet) : Word :=
  crcShift (crcShift (crcShift (crcShift (crcShift (crcShift (crcShift (crcShift
    (crc ^^^ wordOf o 0))))))))

/-- The check register after a run of octets (R9). -/
def crcOver (crc : Word) (octets : List Octet) : Word := octets.foldl crcOctet crc

/-- The octets that the check covers, Length to the last Body octet (R5, R9). -/
def coveredOctets (t : Telegram) : List Octet :=
  octetOf (5 + t.body.length) :: t.dest :: t.source :: kindOctet t.kind :: t.seq :: t.code :: t.body

/-- The octets of a telegram on the line, Lead and Check added (R4, R9, R15). -/
def telegramOctets (t : Telegram) : List Octet :=
  leadOctet :: (coveredOctets t ++ wordOctets (crcOver crcPreset (coveredOctets t)))

/-- The fields of the octets received since the Lead, Length first and the two Check octets last (R4);
none where the Kind is none of the six. -/
def readTelegram (octets : List Octet) : Option Telegram :=
  match octets with
  | _ :: dest :: source :: kind :: seq :: code :: rest =>
    match kindOf kind with
    | some k =>
      some { dest := dest, source := source, kind := k, seq := seq, code := code,
             body := rest.take (rest.length - 2) }
    | none => none
  | _ => none

/-- A station address, 1 to 250 (R7). -/
def stationAddress (a : Octet) : Bool := 1 ≤ a.toNat && a.toNat ≤ 250

/-- A Body that a telegram can carry, 0 to 48 octets (R4). -/
def bodyFits (body : List Octet) : Bool := body.length ≤ 48

/-- The Body lengths that a kind permits (R6, R13). -/
def kindPermits (k : Kind) (n : Nat) : Bool :=
  match k with
  | .req | .ans => n ≤ 48
  | .fault => n ≤ 1
  | .held | .wait => n == 0
  | .collect => n == 1

/-- The structural checks of a telegram whose Kind is one of the six: Dest, Source and the Body length
(R13). -/
def telegramValid (t : Telegram) : Bool :=
  t.dest.toNat ≤ 250 && stationAddress t.source && kindPermits t.kind t.body.length

end Sys2Proof.Machine
end

