-- ==== Sys2Proof/Machine/Operands.lean ====
section
/-! DEFINITION. The operand forms: tickets (R20), fault reasons (R27), the codes of enumerated values in
management Bodies (R149), the range checks of a Body (R148), and the reading of a head's request
through a directory slot and its profile (R30, R31, R57, R58, R66 to R72). -/

namespace Sys2Proof.Machine

/-! ### Tickets -/

/-- The ticket of a slot at an issue: issue × 16 + slot (R20). -/
def ticketOf (issue : BitVec 4) (i : SlotId) : Octet := issue ++ BitVec.ofNat 4 i.val

/-- The slot that a quoted ticket names: the ticket modulo 16 (R20). -/
def ticketSlot (q : Octet) : SlotId := ⟨q.toNat % 16, Nat.mod_lt _ (by decide)⟩

/-- The issue that a quoted ticket names: the ticket divided by 16 (R20). -/
def ticketIssue (q : Octet) : BitVec 4 := q.extractLsb' 4 4

/-- The ticket that a slot shows, of its record or of the last it held (R20, R157). -/
def State.ticket (s : State) (i : SlotId) : Octet := ticketOf (s.issue i) i

/-! ### Fault reasons -/

/-- The fault reasons that the part raises (R27). -/
inductive Reason where
  | unsupported | denied | range | lineOff | branchBusy | noTicket | full | device | timeout
  | badAnswer | lineError | expired | cancelled | lost | revoked | busy | noStage | badArgument
  | duplicate | conflict | stale
  deriving DecidableEq, Repr

/-- The value of a reason in the Code of a FAULT (R27). -/
def Reason.octet (r : Reason) : Octet :=
  match r with
  | .unsupported => 0x01
  | .denied => 0x02
  | .range => 0x03
  | .lineOff => 0x04
  | .branchBusy => 0x05
  | .noTicket => 0x06
  | .full => 0x07
  | .device => 0x08
  | .timeout => 0x09
  | .badAnswer => 0x0A
  | .lineError => 0x0B
  | .expired => 0x0C
  | .cancelled => 0x0D
  | .lost => 0x0E
  | .revoked => 0x0F
  | .busy => 0x10
  | .noStage => 0x11
  | .badArgument => 0x12
  | .duplicate => 0x13
  | .conflict => 0x14
  | .stale => 0x15

/-- The result FAULT TIMEOUT, BAD_ANSWER or LINE_ERROR of an action whose retries are spent (R38). -/
def Failure.reason (f : Failure) : Reason :=
  match f with
  | .noAnswer => .timeout
  | .badAnswer => .badAnswer
  | .lineError => .lineError

/-- The detail of FAULT EXPIRED: the record's last failure (R41). -/
def failureDetail (f : Option Failure) : Octet :=
  match f with
  | none => 0
  | some .noAnswer => 1
  | some .badAnswer => 2
  | some .lineError => 3

/-! ### Codes of enumerated values (R149) -/

def BankId.code (k : BankId) : Octet :=
  match k with
  | .a => 0
  | .b => 1

/-- The bank that is not `k` (R79). -/
def BankId.other (k : BankId) : BankId :=
  match k with
  | .a => .b
  | .b => .a

def OtherRole.code (r : OtherRole) : Octet :=
  match r with
  | .staged => 0
  | .draining => 1
  | .reseeding => 2

def StationKind.code (k : StationKind) : Octet :=
  match k with
  | .leaf => 0
  | .relay => 1

def kindOfCode (o : Octet) : StationKind := if o = 0 then .leaf else .relay

def Access.code (a : Access) : Octet :=
  match a with
  | .opened => 0
  | .readOnly => 1
  | .closed => 2

def accessOfCode (o : Octet) : Access :=
  if o = 0 then .opened else if o = 1 then .readOnly else .closed

def OpClass.code (c : OpClass) : Octet :=
  match c with
  | .read => 0
  | .write => 1
  | .control => 2
  | .refuse => 3

def classOfCode (o : Octet) : OpClass :=
  if o = 0 then .read else if o = 1 then .write else if o = 2 then .control else .refuse

def boolCode (b : Bool) : Octet := if b then 1 else 0

def LineState.code (st : LineState) : Octet :=
  match st with
  | .off => 0
  | .faulted => 1
  | .idle => 2
  | .sending _ => 3
  | .listening _ _ => 4
  | .settling _ => 5

def ActiveState.code (st : ActiveState) : Octet :=
  match st with
  | .queued => 1
  | .onLine => 2
  | .backoff _ => 3
  | .deferred _ => 4

/-- The state code of a slot (section 2.3). -/
def slotCode (r : Option Record) : Octet :=
  match r with
  | none => 0
  | some r =>
    match r.phase with
    | .active st _ => st.code
    | .done _ _ => 5
    | .delivered _ _ _ => 6

/-- The number of a branch, 1 to 4. -/
def branchNumber (b : Branch) : Octet := octetOf (b.val + 1)

/-- The branch of a line number from 1 to 4. -/
def branchOfNumber (o : Octet) : Branch := Fin.ofNat 4 (o.toNat - 1)

/-- A rate code from its octet, 0 to 5. -/
def rateOfCode (o : Octet) : RateCode := Fin.ofNat 6 o.toNat

def rateOctet (r : RateCode) : Octet := octetOf r.val

/-! ### Range checks (R148) -/

/-- A range inclusive at both ends. -/
def within (low high n : Nat) : Bool := low ≤ n && n ≤ high

/-- The offset of the first field out of range, the fields in the order of their offsets (R146,
R148). -/
def firstOutOfRange (checks : List (Octet × Bool)) : Option Octet :=
  (checks.find? fun c => !c.2).map Prod.fst

/-! ### A head's request through a slot and its profile -/

/-- The operation entry of a field operation code 0x00 to 0x1F (R66, R67). -/
def Profile.opEntry (p : Profile) (code : Octet) : OpEntry := p.ops.get (Fin.ofNat 32 code.toNat)

/-- A field operation code, 0x00 to 0x1F (R6). -/
def fieldCode (code : Octet) : Bool := code.toNat ≤ 0x1F

/-- The class of a request and the Code to forward, or none where the code or its class is refused with
UNSUPPORTED (R30, R57, R58, R67). -/
def requestClass (p : Profile) (k : StationKind) (code : Octet) : Option (OpClass × Octet) :=
  if fieldCode code then
    let e := p.opEntry code
    match e.cls, k with
    | .refuse, _ => none
    | c, .leaf => some (c, e.code)
    | c, .relay => some (c, code)
  else if within 0x80 0x8F code.toNat && k == .relay then some (.control, code)
  else none

/-- Whether the access mode admits the class (R30, R60). -/
def Access.admits (a : Access) (c : OpClass) : Bool :=
  match a with
  | .opened => true
  | .readOnly => c == .read
  | .closed => false

/-- The forwarded register: on a LEAF the head's register plus the signed offset, none outside 0 to
65535; on a RELAY the head's register as it stands (R71). -/
def forwardRegister (p : Profile) (k : StationKind) (register : Word) : Option Word :=
  match k with
  | .relay => some register
  | .leaf =>
    let sum : Int := (register.toNat : Int) + p.offset.toInt
    if 0 ≤ sum ∧ sum ≤ 65535 then some (BitVec.ofInt 16 sum) else none

/-- The outbound Body of a request of a class, or none where its shape or its register translation
fails with RANGE (R31, R68 to R72). -/
def forwardBody (p : Profile) (k : StationKind) (c : OpClass) (body : List Octet) :
    Option (List Octet) :=
  match c with
  | .read =>
    match body with
    | [high, low, count] =>
      if within 1 48 count.toNat then
        (forwardRegister p k (wordOf high low)).map fun r => wordOctets r ++ [count]
      else none
    | _ => none
  | .write =>
    match body with
    | high :: low :: first :: rest =>
      if rest.length ≤ 45 then
        (forwardRegister p k (wordOf high low)).map fun r => wordOctets r ++ first :: rest
      else none
    | _ => none
  | .control => if body.length ≤ 48 then some body else none
  | .refuse => none

end Sys2Proof.Machine
end

