-- ==== Sys2Proof/Machine/Ops.lean ====
section
/-! DEFINITION. The shared operations over State: access to its parts, transmissions of the framers
(R15 to R17), the choice of claimant (R104 to R108), completion and departure of records (R24, R25,
R91), the outcome of an attempt (R36 to R38), and a branch line going down (R122, R123). -/

namespace Sys2Proof.Machine

/-! ### Access to the parts -/

/-- The part is in hard reset: RESET_N or the power-on detector holds it (R186). -/
def State.inReset (s : State) : Bool := s.pinReset || s.supplyReset

/-- What an event does while the part is out of hard reset. In hard reset no framer receives or
transmits and no block takes an event (R19, R176), so the event leaves the state as it is. -/
def State.whenRunning (s : State) (f : State → State) : State := if s.inReset then s else f s

def State.framer (s : State) (l : Line) : Framer := s.framers.get l

def State.setMode (s : State) (l : Line) (m : FramerMode) : State :=
  { s with framers := s.framers.set l { s.framer l with mode := m } }

def State.setRate (s : State) (l : Line) (r : RateCode) : State :=
  { s with framers := s.framers.set l { s.framer l with rate := r } }

def State.line (s : State) (b : Branch) : BranchLine := s.lines.get b

def State.setLine (s : State) (b : Branch) (ln : BranchLine) : State :=
  { s with lines := s.lines.set b ln }

def State.setLineState (s : State) (b : Branch) (st : LineState) : State :=
  s.setLine b { s.line b with state := st }

/-- Put a record into a slot, or make the slot FREE; the issue counter stays (R21, R22). -/
def State.setRecord (s : State) (i : SlotId) (r : Option Record) : State :=
  { s with slots := s.slots.set i { s.slots.get i with record := r } }

def State.setIssue (s : State) (i : SlotId) (n : BitVec 4) : State :=
  { s with slots := s.slots.set i { s.slots.get i with issue := n } }

def State.bank (s : State) (k : BankId) : Bank :=
  match k with
  | .a => s.bankA
  | .b => s.bankB

def State.setBank (s : State) (k : BankId) (c : Bank) : State :=
  match k with
  | .a => { s with bankA := c }
  | .b => { s with bankB := c }

/-- The LIVE bank's content (R79). -/
def State.liveBank (s : State) : Bank := s.bank s.live

/-- The other bank's content (R79). -/
def State.otherBank (s : State) : Bank := s.bank s.live.other

/-! ### Framers -/

/-- A telegram is in progress in the receiver, in LENGTH or BODY (section 1.5). -/
def FramerMode.inProgress (m : FramerMode) : Bool :=
  match m with
  | .hunt => false
  | .length _ _ => true
  | .body _ _ _ _ => true
  | .transmitting _ _ => false

def FramerMode.isTransmitting (m : FramerMode) : Bool :=
  match m with
  | .hunt => false
  | .length _ _ => false
  | .body _ _ _ _ => false
  | .transmitting _ _ => true

/-- The framer begins to transmit a telegram: DE is driven, and a telegram in progress in the receiver
is abandoned and counted in RX_TORN (R15, R17, R168). On a branch every octet's echo is then expected
(R18); the trunk framer compares none. -/
def State.transmit (s : State) (l : Line) (t : Telegram) : State :=
  let s := if (s.framer l).mode.inProgress then s.countRxTorn l else s
  let octets := telegramOctets t
  (s.setMode l (.transmitting octets (if l = 0 then [] else octets))).setDriver l true

/-- The end of a transmission, by its last octet or by a cut: DE is released and the receiver stands in
HUNT (R15, R16, R187). A framer that does not transmit is left as it is. -/
def State.endTransmission (s : State) (l : Line) : State :=
  if (s.framer l).mode.isTransmitting then (s.setMode l .hunt).setDriver l false else s

/-- The TXD output of a line: it follows the bits of the telegram that its framer transmits while DE is
high, the octets back to back, and is driven high otherwise (R15, R187). -/
def State.txd (s : State) (l : Line) : TxdOutput :=
  match s.driverEnable.get l, (s.framer l).mode with
  | true, .transmitting octets _ => .follows (octets.flatMap octetBits)
  | true, .hunt => .high
  | true, .length _ _ => .high
  | true, .body _ _ _ _ => .high
  | false, _ => .high

/-- The last stop bit of a branch transmission is still to come: DE is high, and of the octets sent only
the last has its echo still expected (R15, R18). -/
def State.stopBitToCome (s : State) (b : Branch) : Bool :=
  match (s.framer (lineOf b)).mode with
  | .transmitting _ [_] => s.driverEnable.get (lineOf b)
  | _ => false

/-- The last stop bit of a line ends now, by the free value (log entry 10). -/
def State.stopBitEnds (s : State) (l : Line) : Bool :=
  match branchOf l with
  | none => false
  | some b => s.stopBitToCome b && Config.stopBitEnds s.freeChoices b

/-- The time before an event: of the last stop bits that are still to come, each line's own ends or
does not, and where it ends DE is released before the echo has come (R15, R187). No row of the table is
this event, log entry 10. -/
def State.endStopBits (s : State) : State :=
  if (List.finRange 4).any s.stopBitToCome then
    { s with
      driverEnable := Vector.ofFn fun l => s.driverEnable.get l && !s.stopBitEnds l
      freeChoices := s.freeChoices + 1 }
  else s

/-- A telegram in progress in the receiver is abandoned, uncounted (R2, R19). -/
def State.abandonReception (s : State) (l : Line) : State :=
  if (s.framer l).mode.inProgress then s.setMode l .hunt else s

/-! ### The answer buffer -/

/-- An answer to a telegram: to its Source, with its Seq (R136). -/
def answerTo (t : Telegram) (source : Octet) (kind : Kind) (code : Octet) (body : List Octet) :
    Telegram :=
  { dest := t.source, source := source, kind := kind, seq := t.seq, code := code, body := body }

/-- The Body of a FAULT: empty, or its one detail octet (R6). -/
def detailBody (detail : Option Octet) : List Octet := detail.toList

/-- An answer is placed in the buffer, which enters TURNAROUND with its timer of 2 octet times started
(R137, R138). -/
def State.placeAnswer (s : State) (a : Telegram) : State := { s with answer := .turnaround a 2 }

/-! ### The choice of claimant -/

/-- Whether an ASK of a record is held back: another record with the same target and branch and an
earlier admission stamp is QUEUED or in BACKOFF with action ASK (R104). -/
def State.heldBack (s : State) (r : Record) : Bool :=
  s.someRecord fun e =>
    e.target == r.target && e.branch == r.branch && e.admitStamp < r.admitStamp &&
    e.action == .ask &&
    match e.activeState with
    | some .queued => true
    | some (.backoff _) => true
    | _ => false

/-- Whether a queued record may be taken by its line (R104). -/
def State.eligible (s : State) (i : SlotId) : Bool :=
  (s.record i).any fun r =>
    r.activeState == some .queued &&
    match r.action with
    | .collect _ => true
    | .ask => !s.heldBack r

/-- The telegram of a record's action, at a branch sequence (R108). -/
def recordTelegram (own : Octet) (r : Record) (seq : Octet) : Telegram :=
  match r.action with
  | .ask =>
    { dest := r.outbound.dest, source := own, kind := .req, seq := seq, code := r.outbound.code,
      body := r.outbound.body }
  | .collect link =>
    { dest := link.address, source := own, kind := .collect, seq := seq, code := link.ticket,
      body := [link.opening] }

/-- The telegram of a relayed broadcast (R108, R126). -/
def broadcastTelegram (own : Octet) (bc : Broadcast) (seq : Octet) : Telegram :=
  { dest := 0, source := own, kind := .req, seq := seq, code := bc.code, body := bc.body }

/-- What the attempt of a record looks for: the expected source is the node address for an ASK of a
LEAF, the target for an ASK of a RELAY (each the Dest of the outbound request, R57, R58) and the
collect address for a COLLECT (R106). -/
def soughtBy (r : Record) : Sought :=
  match r.action with
  | .ask => .ask r.kind r.outbound.dest
  | .collect link => .collect r.kind link.address link.ticket

/-- The state of an active record changes; its lifetime timer runs on (R23). -/
def Record.withActive (r : Record) (st : ActiveState) : Record :=
  match r.phase with
  | .active _ lifetime => { r with phase := .active st lifetime }
  | .done _ _ => r
  | .delivered _ _ _ => r

/-- The buffered broadcast becomes the current attempt: the buffer empties, a sequence is drawn, and
the line enters SENDING (R105, R107, R126). -/
def State.takeBroadcast (s : State) (b : Branch) (bc : Broadcast) : State :=
  let ln := s.line b
  let seq := ln.seq + 1
  let s := s.setLine b { ln with broadcast := none, seq := seq, state := .sending (.broadcast seq) }
  s.transmit (lineOf b) (broadcastTelegram s.ownAddress bc seq)

/-- A queued record becomes ON_LINE as the current attempt: it leaves the queue, draws a sequence at
the first transmission of its action and keeps the one it holds at a retransmission, and the line
enters SENDING (R35, R105 to R108). -/
def State.takeRecord (s : State) (b : Branch) (i : SlotId) : State :=
  match s.record i with
  | none => s
  | some r =>
    let ln := s.line b
    let seq := r.branchSeq.getD (ln.seq + 1)
    let drawn := if r.branchSeq.isSome then ln.seq else ln.seq + 1
    let attempt : Exchange := { record := some i, seq := seq, sought := soughtBy r }
    let s := s.setRecord i (some { r.withActive .onLine with branchSeq := some seq })
    let s := s.setLine b
      { ln with queue := ln.queue.erase i, seq := drawn, state := .sending (.exchange attempt) }
    s.transmit (lineOf b) (recordTelegram s.ownAddress r seq)

/-- The controller looks for a claimant: on an IDLE line the buffered broadcast, else the first
eligible record in queue order, else nothing (R105). -/
def State.look (s : State) (b : Branch) : State :=
  match (s.line b).state with
  | .idle =>
    match (s.line b).broadcast with
    | some bc => s.takeBroadcast b bc
    | none =>
      match (s.line b).queue.find? s.eligible with
      | some i => s.takeRecord b i
      | none => s
  | _ => s

/-- Every controller looks for a claimant. -/
def State.lookAll (s : State) : State := (List.finRange 4).foldl State.look s

/-- A record that has entered QUEUED joins the tail of its branch queue, and the controller looks for a
claimant (R24, R105). -/
def State.joinQueue (s : State) (b : Branch) (i : SlotId) : State :=
  (s.setLine b { s.line b with queue := (s.line b).queue ++ [i] }).look b

/-! ### Completion -/

/-- A departure from the active states, of a record of this captured bank: the drain count goes down by
one when that is the DRAINING bank, and at 0 the bank becomes RESEEDING (R91). -/
def State.depart (s : State) (k : BankId) : State :=
  if s.otherRole = .draining ∧ k ≠ s.live then
    if s.drainCount ≤ 1 then { s with drainCount := 0, otherRole := .reseeding }
    else { s with drainCount := s.drainCount - 1 }
  else s

/-- The attempt of a record becomes an ORPHAN: its record field is dropped (R106, R120). -/
def Exchange.orphaned (x : Exchange) (i : SlotId) : Exchange :=
  if x.record = some i then { x with record := none } else x

/-- The controller is told that a record has completed by other means (R25, R120). -/
def State.orphan (s : State) (b : Branch) (i : SlotId) : State :=
  match (s.line b).state with
  | .sending (.exchange x) => s.setLineState b (.sending (.exchange (x.orphaned i)))
  | .listening x w => s.setLineState b (.listening (x.orphaned i) w)
  | _ => s

/-- A record leaves the queue of its branch; the records behind it keep their order (R103). -/
def State.dequeue (s : State) (b : Branch) (i : SlotId) : State :=
  s.setLine b { s.line b with queue := (s.line b).queue.erase i }

/-- What a completing record leaves on its branch: a QUEUED record leaves its queue, and the attempt
of an ON_LINE record, where it still stands, becomes an orphan (R25). -/
def State.leaveLine (s : State) (i : SlotId) (r : Record) : State :=
  match r.activeState with
  | some .queued => s.dequeue r.branch i
  | some .onLine => s.orphan r.branch i
  | _ => s

/-- A record in DONE: its result, the hold timer started, and no branch sequence, since the action has
ended (R22, R25). -/
def Record.completed (r : Record) (result : Result) (hold : Word) : Record :=
  { r with branchSeq := none, phase := .done result hold }

/-- A record completes: the result is stored, its branch sequence is dropped, the hold timer is started
with the trunk hold time, the other timers stop, its departure is reported and ATTN is asserted (R22,
R25). -/
def State.complete (s : State) (i : SlotId) (result : Result) : State :=
  match s.record i with
  | none => s
  | some r =>
    if r.isActive then
      let s := s.leaveLine i r
      let s := s.setRecord i (some (r.completed result s.holdTime))
      (s.depart r.bank).assertAttention
    else s

/-- The record has left QUEUED or BACKOFF without joining the queue, for which the controller looks for
a claimant (R105). -/
def waitedOffLine (r : Record) : Bool :=
  match r.activeState with
  | some .queued => true
  | some (.backoff _) => true
  | _ => false

/-- A record completes without its line's outcome, by lifetime expiry or CANCEL (R41, R42), and the
controller looks for a claimant where R105 says so. -/
def State.completeEarly (s : State) (i : SlotId) (result : Result) : State :=
  match s.record i with
  | none => s
  | some r =>
    let s' := s.complete i result
    if waitedOffLine r then s'.look r.branch else s'

/-- Every active record of which `p` holds completes (R43, R44). -/
def State.completeAll (s : State) (p : Record → Bool) (result : Result) : State :=
  (List.finRange 16).foldl
    (fun s i => if (s.record i).any (fun r => r.isActive && p r) then s.complete i result else s) s

/-! ### The outcome of an attempt -/

/-- The line enters SETTLING with its timer of 4 octet times started, and the current attempt is
discarded (R117). -/
def State.settle (s : State) (b : Branch) : State := s.setLineState b (.settling 4)

/-- The profile that the captured slot of a record names, in the captured bank (R62, R73). The captured
slot of an active record is valid (R62); an empty one, which no run reaches, gives profile 0, log
entry 9. -/
def State.capturedProfile (s : State) (r : Record) : Profile :=
  match (s.bank r.bank).directory.get r.dirSlot with
  | some e => (s.bank r.bank).profiles.get e.profile
  | none => (s.bank r.bank).profiles.get 0

/-- The retry budget of the captured slot in the captured bank (R61). For an empty slot, which no run
reaches, the retries left, log entry 9. -/
def State.capturedBudget (s : State) (r : Record) : Nat :=
  match (s.bank r.bank).directory.get r.dirSlot with
  | some e => e.budget.val
  | none => r.retries

/-- The detail of FAULT DEVICE for a device reason: the fault entry for 0 to 15, the reason itself from
16 (R73). -/
def Profile.deviceDetail (p : Profile) (reason : Octet) : Octet :=
  if reason.toNat < 16 then p.faults.get (Fin.ofNat 16 reason.toNat) else reason

/-- The result of an accepted FAULT (R36, R73, R74). -/
def State.faultResult (s : State) (r : Record) (t : Telegram) : Result :=
  match r.kind, r.action with
  | .leaf, _ => .fault Reason.device.octet (some ((s.capturedProfile r).deviceDetail t.code))
  | .relay, .ask => .fault t.code t.body.head?
  | .relay, .collect _ =>
    if t.code = Reason.noTicket.octet then .fault Reason.lost.octet none
    else .fault t.code t.body.head?

/-- A record enters DEFERRED with its wait timer started with the collect interval of its branch, its
branch sequence cleared (R37). -/
def State.defer (s : State) (i : SlotId) (r : Record) (action : Action) : State :=
  s.setRecord i (some
    { r.withActive (.deferred (s.line r.branch).settings.interval) with
      action := action, branchSeq := none })

/-- An accepted answer is reported for a record, which takes it when it is ON_LINE (R36, R37). -/
def State.reportAnswer (s : State) (i : SlotId) (t : Telegram) : State :=
  match s.record i with
  | none => s
  | some r =>
    if r.activeState = some .onLine then
      match t.kind with
      | .ans => s.complete i (.ans t.body)
      | .fault => s.complete i (s.faultResult r t)
      | .held =>
        s.defer i r (.collect
          { address := t.source, ticket := t.code, opening := r.branchSeq.getD t.seq })
      | .wait => s.defer i r r.action
      | .req => s
      | .collect => s
    else s

/-- A failure is reported for a record, which takes it when it is ON_LINE: it is stored as the last
failure, and the record enters BACKOFF, rejoins its queue at once, or completes, by its retries left
and the retry delay (R38). -/
def State.reportFailure (s : State) (i : SlotId) (f : Failure) : State :=
  match s.record i with
  | none => s
  | some r =>
    if r.activeState = some .onLine then
      let delay := (s.line r.branch).settings.delay
      if r.retries = 0 then
        (s.setRecord i (some { r with failure := some f })).complete i
          (.fault f.reason.octet none)
      else if delay = 0 then
        (s.setRecord i (some
          { r.withActive .queued with failure := some f, retries := r.retries - 1 })).joinQueue
            r.branch i
      else
        s.setRecord i (some
          { r.withActive (.backoff delay) with failure := some f, retries := r.retries - 1 })
    else s

/-! ### A branch line going down and coming up -/

/-- The current attempt of a line is a broadcast. -/
def LineState.sendsBroadcast (st : LineState) : Bool :=
  match st with
  | .sending (.broadcast _) => true
  | _ => false

/-- A line goes to OFF or FAULTED: a transmission is cut, the timers stop, the current attempt is
discarded, a broadcast on the line and one in the buffer are each dropped and counted, and every
active record of the branch completes with LINE_OFF (R43, R122, R123). -/
def State.lineDown (s : State) (b : Branch) (down : LineState) : State :=
  let ln := s.line b
  let s := s.endTransmission (lineOf b)
  let s := if ln.state.sendsBroadcast then s.countBranch b .bcastDropped else s
  let s := if ln.broadcast.isSome then s.countBranch b .bcastDropped else s
  let s := s.setLine b { ln with state := down, broadcast := none }
  s.completeAll (fun r => r.branch == b) (.fault Reason.lineOff.octet none)

/-- A pending rate is applied: the framer takes it, abandoning uncounted a telegram in progress, and
nothing is pending any more (R2, R100). -/
def State.applyRate (s : State) (b : Branch) : State :=
  match (s.line b).pendingRate with
  | none => s
  | some r =>
    ((s.abandonReception (lineOf b)).setRate (lineOf b) r).setLine b
      { s.line b with pendingRate := none }

/-- The line enters IDLE: a pending rate is applied and the controller looks for a claimant (R100,
R105, R117, R124). -/
def State.enterIdle (s : State) (b : Branch) : State :=
  ((s.setLineState b .idle).applyRate b).look b

end Sys2Proof.Machine
end

