-- ==== Sys2Proof/Machine/Admission.lean ====
section
/-! DEFINITION. The exchange table's dealings with the head: lookup in the LIVE directory (R54),
admission (R28 to R34) and collection (R45, R46). -/

namespace Sys2Proof.Machine

/-! ### Lookup -/

/-- The valid slot of a bank's directory that holds a logical address (R54). -/
def Bank.find (k : Bank) (address : Octet) : Option (Fin 64 × DirEntry) :=
  (List.finRange 64).findSome? fun i =>
    match k.directory.get i with
    | some e => if e.logical = address then some (i, e) else none
    | none => none

/-! ### Admission -/

/-- The slot of the record that makes a REQ a duplicate: the same opener, opening sequence and target
(R29). -/
def State.duplicateOf (s : State) (t : Telegram) : Option SlotId :=
  (List.finRange 16).find? fun i =>
    (s.record i).any fun r => r.opener == t.source && r.opening == t.seq && r.target == t.dest

/-- The outbound request of a head's REQ through a slot, or the reason of the first content check that
fails: code and class, access, body shape and register translation (R28, R30, R31, R57, R58). -/
def requestOutbound (k : Bank) (e : DirEntry) (t : Telegram) : Except Reason Outbound :=
  let p := k.profiles.get e.profile
  match requestClass p e.kind t.code with
  | none => .error .unsupported
  | some (cls, code) =>
    if !e.access.admits cls then .error .denied
    else
      match forwardBody p e.kind cls t.body with
      | none => .error .range
      | some body =>
        .ok { dest := (match e.kind with | .leaf => e.node | .relay => t.dest),
              code := code, body := body }

/-- A line in OFF or FAULTED. -/
def LineState.isDown (st : LineState) : Bool :=
  match st with
  | .off => true
  | .faulted => true
  | _ => false

/-- The lowest-numbered FREE slot (R34). -/
def State.freeSlot (s : State) : Option SlotId :=
  (List.finRange 16).find? fun i => (s.record i).isNone

/-- The delivery stamp of a DELIVERED record (R22). -/
def Record.deliveryStamp (r : Record) : Option Nat :=
  match r.phase with
  | .active _ _ => none
  | .done _ _ => none
  | .delivered _ _ stamp => some stamp

/-- The delivery stamp of the record in a slot. -/
def State.deliveryStamp (s : State) (i : SlotId) : Option Nat :=
  (s.record i).bind Record.deliveryStamp

/-- The slot of the DELIVERED record with the earliest delivery stamp (R33). -/
def State.earliestDelivered (s : State) : Option SlotId :=
  (List.finRange 16).find? fun i =>
    (s.deliveryStamp i).any fun d =>
      (List.finRange 16).all fun j => (s.deliveryStamp j).all fun d' => d ≤ d'

/-- The record supply (R33): the state with a FREE slot and that slot, reclaiming the earliest
DELIVERED record where none is FREE; none where nothing can be reclaimed. -/
def State.supply (s : State) : Option (State × SlotId) :=
  match s.freeSlot with
  | some i => some (s, i)
  | none =>
    match s.earliestDelivered with
    | some i => some (s.setRecord i none, i)
    | none => none

/-- A refusal of a REQ to a logical address: FAULT from the target, counted in REFUSED (R28, R136). -/
def State.refuse (s : State) (t : Telegram) (reason : Reason) : State :=
  (s.placeAnswer (answerTo t t.dest .fault reason.octet [])).countTrunk .refused

/-- The record of an admitted REQ (R34). -/
def State.newRecord (s : State) (d : Fin 64) (e : DirEntry) (t : Telegram) (out : Outbound) :
    Record where
  opener := t.source
  opening := t.seq
  headCode := t.code
  target := t.dest
  bank := s.live
  dirSlot := d
  branch := e.branch
  kind := e.kind
  outbound := out
  action := .ask
  branchSeq := none
  retries := e.budget.val
  failure := none
  admitStamp := s.nextAdmission
  phase := .active .queued (s.line e.branch).settings.lifetime

/-- An admitted REQ takes a FREE slot: the issue advances, the record is filled, HELD with the new
ticket is placed, ADMITTED counted, and the record joins its branch queue (R21, R34). -/
def State.openRecord (s : State) (i : SlotId) (r : Record) (t : Telegram) : State :=
  let s := s.setIssue i (s.issue i + 1)
  let s := s.setRecord i (some r)
  let s := { s with nextAdmission := s.nextAdmission + 1 }
  let s := s.placeAnswer (answerTo t s.ownAddress .held (s.ticket i) [])
  (s.countTrunk .admitted).joinQueue r.branch i

/-- A duplicate REQ is answered HELD with the ticket of the record it repeats (R29). -/
def State.answerDuplicate (s : State) (i : SlotId) (t : Telegram) : State :=
  (s.placeAnswer (answerTo t s.ownAddress .held (s.ticket i) [])).countTrunk .duplicates

/-- Admission of a REQ through the LIVE slot `d` with the fields `e`, its checks in the order of R28. -/
def State.judgeRequest (s : State) (d : Fin 64) (e : DirEntry) (t : Telegram) : State :=
  match s.duplicateOf t with
  | some i => s.answerDuplicate i t
  | none =>
    match requestOutbound s.liveBank e t with
    | .error reason => s.refuse t reason
    | .ok out =>
      if (s.line e.branch).state.isDown then s.refuse t .lineOff
      else if (s.line e.branch).settings.quota.toNat ≤ s.activeCount e.branch then
        s.refuse t .branchBusy
      else
        match s.supply with
        | none => s.refuse t .full
        | some (s', i) => s'.openRecord i (s'.newRecord d e t out) t

/-! ### Collection -/

/-- The slot and record that a quoted ticket matches, for a Source and an opening sequence (R20, R42,
R45). -/
def State.matchTicket (s : State) (ticket source opening : Octet) : Option (SlotId × Record) :=
  let i := ticketSlot ticket
  match s.record i with
  | none => none
  | some r =>
    if s.issue i = ticketIssue ticket ∧ r.opener = source ∧ r.opening = opening then some (i, r)
    else none

/-- The answer that carries a result (R46). -/
def resultAnswer (own : Octet) (t : Telegram) (r : Record) (result : Result) : Telegram :=
  match result with
  | .ans body => answerTo t own .ans r.headCode body
  | .fault reason detail => answerTo t own .fault reason (detailBody detail)

/-- A COLLECT to the own address (R45, R46). Its one Body octet is the opening sequence. -/
def State.collectFor (s : State) (t : Telegram) : State :=
  match t.body.head?.bind (s.matchTicket t.code t.source) with
  | none => s.placeAnswer (answerTo t s.ownAddress .fault Reason.noTicket.octet [])
  | some (i, r) =>
    match r.phase with
    | .active _ _ => s.placeAnswer (answerTo t s.ownAddress .wait t.code [])
    | .done result _ =>
      let s := s.placeAnswer (resultAnswer s.ownAddress t r result)
      let s := s.setRecord i
        (some { r with phase := .delivered result s.lingerTime s.nextDelivery })
      let s := { s with nextDelivery := s.nextDelivery + 1 }
      s.releaseAttention.countTrunk .collects
    | .delivered result _ _ =>
      (s.placeAnswer (resultAnswer s.ownAddress t r result)).countTrunk .collects

end Sys2Proof.Machine
end

