-- ==== Sys2Proof/Machine/Management.lean ====
section
/-! DEFINITION. The management unit (chapter 8): the fourteen operations, each with its checks in the
order of R146, its effect and its answer. -/

namespace Sys2Proof.Machine

/-- What an operation answers: ANS with a Body, or FAULT with a reason and a detail (R145, R149). -/
inductive Reply where
  | ans (body : List Octet)
  | fault (reason : Reason) (detail : Option Octet)
  deriving DecidableEq, Repr

/-- FAULT BAD_ARGUMENT with the offset of a field, or 255 for the length (R148). -/
def badArgument (s : State) (detail : Octet) : Reply × State :=
  (.fault .badArgument (some detail), s)

/-- FAULT NO_STAGE with the other-bank role code (R82, R86). -/
def noStage (s : State) : Reply × State := (.fault .noStage (some s.otherRole.code), s)

/-- An operation with no field but its length: the Body is empty (R148). -/
def withEmptyBody (s : State) (body : List Octet) (run : Reply × State) : Reply × State :=
  if body.isEmpty then run else badArgument s 255

/-- The fields are examined in the order of their offsets; the operation runs where none is out of
range (R146, R148). -/
def withFields (s : State) (checks : List (Octet × Bool)) (run : Reply × State) : Reply × State :=
  match firstOutOfRange checks with
  | some offset => badArgument s offset
  | none => run

/-- A staged write: carried out on the STAGED bank, refused with NO_STAGE in another role (R82). -/
def stagedWrite (s : State) (edit : Bank → Bank) : Reply × State :=
  match s.otherRole with
  | .staged => (.ans [], s.setBank s.live.other (edit s.otherBank))
  | .draining => noStage s
  | .reseeding => noStage s

/-- A read of the bank that a selector names, 0 LIVE or 1 OTHER (R86). -/
def bankRead (s : State) (selector : Octet) (report : Bank → List Octet) : Reply × State :=
  if selector = 0 then (.ans (report s.liveBank), s)
  else
    match s.otherRole with
    | .reseeding => noStage s
    | .staged => (.ans (report s.otherBank), s)
    | .draining => (.ans (report s.otherBank), s)

/-! ### Banks -/

/-- The report of a directory slot (R53). -/
def slotReport (e : Option DirEntry) : List Octet :=
  match e with
  | none => [0, 0, 0, 0, 0, 0, 0, 0]
  | some e =>
    [1, e.logical, branchNumber e.branch, e.kind.code, e.node, octetOf e.profile.val, e.access.code,
      octetOf e.budget.val]

/-- The report of a profile item (R66, R77). -/
def Profile.itemReport (p : Profile) (item : Nat) : List Octet :=
  if item < 32 then
    [(p.ops.get (Fin.ofNat 32 item)).code, (p.ops.get (Fin.ofNat 32 item)).cls.code]
  else if item = 32 then wordOctets p.offset
  else [p.faults.get (Fin.ofNat 16 (item - 33))]

def Bank.setSlot (k : Bank) (i : Fin 64) (e : Option DirEntry) : Bank :=
  { k with directory := k.directory.set i e }

def Bank.editProfile (k : Bank) (n : Fin 8) (edit : Profile → Profile) : Bank :=
  { k with profiles := k.profiles.set n (edit (k.profiles.get n)) }

/-- An operation entry takes a translated code and a class together (R85). -/
def Profile.setOp (p : Profile) (n : Fin 32) (e : OpEntry) : Profile :=
  { p with ops := p.ops.set n e }

def Profile.setOffset (p : Profile) (w : Word) : Profile := { p with offset := w }

def Profile.setFault (p : Profile) (n : Fin 16) (detail : Octet) : Profile :=
  { p with faults := p.faults.set n detail }

/-- READ_SLOT, 0x81 (R152). -/
def opReadSlot (s : State) (body : List Octet) : Reply × State :=
  match body with
  | [selector, slot] =>
    withFields s [(0, within 0 1 selector.toNat), (1, within 0 63 slot.toNat)]
      (bankRead s selector fun k => slotReport (k.directory.get (Fin.ofNat 64 slot.toNat)))
  | _ => badArgument s 255

/-- WRITE_SLOT, 0x82 (R83). -/
def opWriteSlot (s : State) (body : List Octet) : Reply × State :=
  match body with
  | [slot, logical, branch, kind, node, profile, access, budget] =>
    withFields s
      [(0, within 0 63 slot.toNat), (1, within 1 250 logical.toNat), (2, within 1 4 branch.toNat),
       (3, within 0 1 kind.toNat),
       (4, within (if kind = 0 then 1 else 0) 250 node.toNat),
       (5, within 0 7 profile.toNat), (6, within 0 2 access.toNat), (7, within 0 7 budget.toNat)]
      (stagedWrite s fun k => k.setSlot (Fin.ofNat 64 slot.toNat) (some
        { logical := logical, branch := branchOfNumber branch, kind := kindOfCode kind, node := node,
          profile := Fin.ofNat 8 profile.toNat, access := accessOfCode access,
          budget := Fin.ofNat 8 budget.toNat }))
  | _ => badArgument s 255

/-- CLEAR_SLOT, 0x83 (R84). -/
def opClearSlot (s : State) (body : List Octet) : Reply × State :=
  match body with
  | [slot] =>
    withFields s [(0, within 0 63 slot.toNat)]
      (stagedWrite s fun k => k.setSlot (Fin.ofNat 64 slot.toNat) none)
  | _ => badArgument s 255

/-- READ_PROFILE, 0x84 (R153). -/
def opReadProfile (s : State) (body : List Octet) : Reply × State :=
  match body with
  | [selector, profile, item] =>
    withFields s
      [(0, within 0 1 selector.toNat), (1, within 0 7 profile.toNat), (2, within 0 48 item.toNat)]
      (bankRead s selector fun k =>
        (k.profiles.get (Fin.ofNat 8 profile.toNat)).itemReport item.toNat)
  | _ => badArgument s 255

/-- WRITE_PROFILE, 0x85 (R85, R148): profile and item are checked, then the length that the item
takes, then the class of an operation entry. -/
def opWriteProfile (s : State) (body : List Octet) : Reply × State :=
  match body with
  | [profile, item, detail] =>
    withFields s [(0, within 0 7 profile.toNat), (1, within 0 48 item.toNat)]
      (if item.toNat ≤ 32 then badArgument s 255
       else
        stagedWrite s fun k => k.editProfile (Fin.ofNat 8 profile.toNat)
          fun p => p.setFault (Fin.ofNat 16 (item.toNat - 33)) detail)
  | [profile, item, first, second] =>
    withFields s [(0, within 0 7 profile.toNat), (1, within 0 48 item.toNat)]
      (if 32 < item.toNat then badArgument s 255
       else if item.toNat = 32 then
        stagedWrite s fun k => k.editProfile (Fin.ofNat 8 profile.toNat)
          fun p => p.setOffset (wordOf first second)
       else
        withFields s [(3, within 0 3 second.toNat)]
          (stagedWrite s fun k => k.editProfile (Fin.ofNat 8 profile.toNat)
            fun p => p.setOp (Fin.ofNat 32 item.toNat)
              { code := first, cls := classOfCode second }))
  | _ => badArgument s 255

/-! ### Generations -/

/-- The logical address of a directory slot. -/
def Bank.logicalOf (k : Bank) (i : Fin 64) : Option Octet := (k.directory.get i).map DirEntry.logical

/-- The lowest valid slot that shares its logical address with another valid slot (R88). -/
def Bank.duplicateSlot (k : Bank) : Option (Fin 64) :=
  (List.finRange 64).find? fun i =>
    (k.logicalOf i).isSome && (List.finRange 64).any fun j => j ≠ i && k.logicalOf j == k.logicalOf i

/-- The lowest valid slot that holds the own address as its logical address (R88). -/
def Bank.conflictSlot (k : Bank) (own : Octet) : Option (Fin 64) :=
  (List.finRange 64).find? fun i => k.logicalOf i == some own

/-- An accepted COMMIT: the STAGED bank becomes LIVE, the generation advances, and the old LIVE bank
becomes DRAINING with the number of active records that refer to it, or RESEEDING where there is none
(R89). -/
def State.promote (s : State) : State :=
  let n := s.activeIn s.live
  { s with
    live := s.live.other
    generation := s.generation + 1
    drainCount := n
    otherRole := if n = 0 then .reseeding else .draining }

/-- COMMIT, 0x86 (R87 to R89). -/
def opCommit (s : State) (body : List Octet) : Reply × State :=
  match body with
  | [expected] =>
    if s.otherRole ≠ .staged then (.fault .busy (some s.otherRole.code), s)
    else if expected ≠ s.generation then (.fault .stale (some s.generation), s)
    else
      match s.otherBank.duplicateSlot with
      | some i => (.fault .duplicate (some (octetOf i.val)), s)
      | none =>
        match s.otherBank.conflictSlot s.ownAddress with
        | some i => (.fault .conflict (some (octetOf i.val)), s)
        | none => (.ans [s.promote.generation], s.promote)
  | _ => badArgument s 255

/-- RETIRE, 0x87 (R44, R92): in DRAINING every active record of the DRAINING bank completes with
REVOKED; all complete together, then the controllers look for claimants (log entry 7). -/
def opRetire (s : State) (body : List Octet) : Reply × State :=
  withEmptyBody s body
    (match s.otherRole with
     | .draining =>
       (.ans [octetOf (s.activeIn s.live.other)],
        (s.completeAll (fun r => r.bank == s.live.other)
          (.fault Reason.revoked.octet none)).lookAll)
     | .staged => (.ans [0], s)
     | .reseeding => (.ans [0], s))

/-! ### Lines -/

/-- The report of the trunk (R142, R155). -/
def State.trunkReport (s : State) : List Octet :=
  wordOctets s.holdTime ++ wordOctets s.lingerTime ++
    [rateOctet (s.framer 0).rate, s.ownAddress, boolCode s.attn]

/-- The report of a branch (R101, R155). -/
def State.branchReport (s : State) (b : Branch) : List Octet :=
  let ln := s.line b
  [boolCode ln.settings.enable, rateOctet ln.settings.rate] ++ wordOctets ln.settings.window ++
    wordOctets ln.settings.delay ++ wordOctets ln.settings.interval ++
    wordOctets ln.settings.lifetime ++
    [ln.settings.quota, ln.state.code, octetOf (s.activeCount b), octetOf ln.queue.length,
      boolCode ln.broadcast.isSome, octetOf ln.errors]

/-- READ_LINE, 0x88 (R155). -/
def opReadLine (s : State) (body : List Octet) : Reply × State :=
  match body with
  | [line] =>
    withFields s [(0, within 0 4 line.toNat)]
      (if line = 0 then (.ans s.trunkReport, s)
       else (.ans (s.branchReport (branchOfNumber line)), s))
  | _ => badArgument s 255

/-- A controller takes its seven settings; a rate code that differs from the current rate becomes the
pending rate, and an equal one removes it (R99, R100). -/
def State.takeSettings (s : State) (b : Branch) (settings : Settings) : State :=
  s.setLine b { s.line b with
    settings := settings
    pendingRate := if settings.rate = (s.framer (lineOf b)).rate then none else some settings.rate }

/-- Enable off, taken in a line that is not OFF, disables the line (R123). -/
def State.disable (s : State) (b : Branch) : State :=
  match (s.line b).state with
  | .off => s
  | _ => s.lineDown b .off

/-- Enable on, taken in OFF or FAULTED, clears the consecutive-line-error count and enters IDLE (R124). -/
def State.enable (s : State) (b : Branch) : State :=
  if (s.line b).state.isDown then (s.setLine b { s.line b with errors := 0 }).enterIdle b else s

/-- The settings of a branch are written (R99, R156). -/
def State.writeBranch (s : State) (b : Branch) (settings : Settings) : State :=
  let s := s.takeSettings b settings
  if settings.enable then s.enable b else s.disable b

/-- WRITE_LINE, 0x89 (R148, R156): the line is checked, then the length that the line takes, then the
fields. -/
def opWriteLine (s : State) (body : List Octet) : Reply × State :=
  match body with
  | [line, h1, h0, l1, l0] =>
    withFields s [(0, within 0 4 line.toNat)]
      (if line ≠ 0 then badArgument s 255
       else
        withFields s
          [(1, within 100 60000 (wordOf h1 h0).toNat), (3, within 100 10000 (wordOf l1 l0).toNat)]
          (.ans [], { s with holdTime := wordOf h1 h0, lingerTime := wordOf l1 l0 }))
  | [line, enable, rate, w1, w0, d1, d0, c1, c0, x1, x0, quota] =>
    withFields s [(0, within 0 4 line.toNat)]
      (if line = 0 then badArgument s 255
       else
        withFields s
          [(1, within 0 1 enable.toNat), (2, within 0 5 rate.toNat),
           (3, within 5 1000 (wordOf w1 w0).toNat), (5, within 0 5000 (wordOf d1 d0).toNat),
           (7, within 10 10000 (wordOf c1 c0).toNat), (9, within 100 60000 (wordOf x1 x0).toNat),
           (11, within 1 16 quota.toNat)]
          (.ans [], s.writeBranch (branchOfNumber line)
            { enable := enable = 1, rate := rateOfCode rate, window := wordOf w1 w0,
              delay := wordOf d1 d0, interval := wordOf c1 c0, lifetime := wordOf x1 x0,
              quota := quota }))
  | _ => badArgument s 255

/-! ### Records, counters, identity, restart -/

/-- IDENTIFY, 0x80 (R151). -/
def opIdentify (s : State) (body : List Octet) : Reply × State :=
  withEmptyBody s body
    (.ans [0xAD, 0x41, 0x04, 1, s.ownAddress, rateOctet (s.framer 0).rate, s.live.code, s.generation,
      s.otherRole.code, octetOf s.drainCount], s)

/-- READ_RECORDS, 0x8A (R157). -/
def opReadRecords (s : State) (body : List Octet) : Reply × State :=
  withEmptyBody s body
    (.ans ((List.finRange 16).flatMap fun i => [slotCode (s.record i), s.ticket i]), s)

/-- CANCEL, 0x8B (R42, R158). -/
def opCancel (s : State) (source : Octet) (body : List Octet) : Reply × State :=
  match body with
  | [ticket, opening] =>
    match s.matchTicket ticket source opening with
    | none => (.fault .noTicket none, s)
    | some (i, r) =>
      if r.isActive then (.ans [0], s.completeEarly i (.fault Reason.cancelled.octet none))
      else (.ans [1], s)
  | _ => badArgument s 255

/-- The counters of a line in the order of R159. -/
def State.counterReport (s : State) (line : Nat) : List Octet :=
  if line = 0 then s.trunkCounters.toList.flatMap wordOctets
  else (s.branchCounters.get (Fin.ofNat 4 (line - 1))).toList.flatMap wordOctets

/-- Every counter of a line is set to 0 (R159). -/
def State.clearCounters (s : State) (line : Nat) : State :=
  if line = 0 then { s with trunkCounters := Vector.replicate 10 0 }
  else
    { s with
      branchCounters := s.branchCounters.set (Fin.ofNat 4 (line - 1)) (Vector.replicate 11 0) }

/-- READ_COUNTERS, 0x8C (R159). -/
def opReadCounters (s : State) (body : List Octet) : Reply × State :=
  match body with
  | [line, clear] =>
    withFields s [(0, within 0 4 line.toNat), (1, within 0 1 clear.toNat)]
      (.ans (s.counterReport line.toNat),
        if clear = 1 then s.clearCounters line.toNat else s)
  | _ => badArgument s 255

/-- RESTART, 0x8D: answered, and left pending until its answer has been sent (R161). -/
def opRestart (s : State) (body : List Octet) : Reply × State :=
  withEmptyBody s body (.ans [], { s with pendingRestart := true })

/-! ### The unit -/

/-- The operation that a Code names, carried out; UNSUPPORTED outside 0x80 to 0x8D (R146, R147, R150). -/
def operate (s : State) (t : Telegram) : Reply × State :=
  match t.code.toNat with
  | 0x80 => opIdentify s t.body
  | 0x81 => opReadSlot s t.body
  | 0x82 => opWriteSlot s t.body
  | 0x83 => opClearSlot s t.body
  | 0x84 => opReadProfile s t.body
  | 0x85 => opWriteProfile s t.body
  | 0x86 => opCommit s t.body
  | 0x87 => opRetire s t.body
  | 0x88 => opReadLine s t.body
  | 0x89 => opWriteLine s t.body
  | 0x8A => opReadRecords s t.body
  | 0x8B => opCancel s t.source t.body
  | 0x8C => opReadCounters s t.body
  | 0x8D => opRestart s t.body
  | _ => (.fault .unsupported none, s)

/-- The answer of a reply, placed in the buffer; a FAULT is counted in REFUSED (R136, R145, R149). -/
def State.answerReply (s : State) (t : Telegram) (reply : Reply) : State :=
  match reply with
  | .ans body => s.placeAnswer (answerTo t s.ownAddress .ans t.code body)
  | .fault reason detail =>
    (s.placeAnswer (answerTo t s.ownAddress .fault reason.octet (detailBody detail))).countTrunk
      .refused

/-- A REQ to the own address (R132, R145). -/
def State.manage (s : State) (t : Telegram) : State :=
  (operate s t).2.answerReply t (operate s t).1

end Sys2Proof.Machine
end

