-- ==== Sys2Proof/Machine/TrunkPort.lean ====
section
/-! DEFINITION. The trunk port (chapter 7): claiming and dispatch of a valid telegram (R130 to R135),
overruns (R139), the offer of broadcasts (R125), and the two events of an answer's transmission with
the management restart (R138, R144, R161, R162). -/

namespace Sys2Proof.Machine

/-- What a valid telegram on the trunk asks of the bridge (section 7.3). -/
inductive TrunkUse where
  | admission (slot : Fin 64) (entry : DirEntry)
  | management
  | collection
  | broadcast
  | ignored
  deriving DecidableEq, Repr

/-- The claim and dispatch of a telegram (R130 to R135). -/
def State.classify (s : State) (t : Telegram) : TrunkUse :=
  match t.kind with
  | .req =>
    if t.dest = s.ownAddress then .management
    else if t.dest = 0 then (if fieldCode t.code then .broadcast else .ignored)
    else
      match s.liveBank.find t.dest with
      | some (d, e) => .admission d e
      | none => .ignored
  | .collect => if t.dest = s.ownAddress then .collection else .ignored
  | .ans => .ignored
  | .fault => .ignored
  | .held => .ignored
  | .wait => .ignored

/-- A broadcast offered to a branch: dropped and counted in OFF and FAULTED or where one is held,
stored otherwise, after which the controller looks for a claimant (R125). -/
def State.offerBroadcast (s : State) (bc : Broadcast) (b : Branch) : State :=
  let ln := s.line b
  if ln.state.isDown || ln.broadcast.isSome then s.countBranch b .bcastDropped
  else (s.setLine b { ln with broadcast := some bc }).look b

/-- A broadcast offered to each of the four branches (R133). -/
def State.relayBroadcast (s : State) (bc : Broadcast) : State :=
  (List.finRange 4).foldl (fun s b => s.offerBroadcast bc b) s

/-- The block that owns what a telegram asks for takes it (R131 to R135). -/
def State.serve (s : State) (t : Telegram) (u : TrunkUse) : State :=
  match u with
  | .admission d e => s.judgeRequest d e t
  | .management => s.manage t
  | .collection => s.collectFor t
  | .broadcast => s.relayBroadcast { code := t.code, body := t.body }
  | .ignored => s.countTrunk .ignored

/-- The trunk port takes a valid telegram: served where the buffer is EMPTY; in TURNAROUND an overrun,
but for an ignored telegram, which is counted IGNORED (R135, R139). In SENDING no telegram completes
(R17, R139). -/
def State.trunkTake (s : State) (t : Telegram) : State :=
  match s.answer with
  | .empty => s.serve t (s.classify t)
  | .turnaround _ _ =>
    if s.classify t = .ignored then s.countTrunk .ignored else s.countTrunk .overrun
  | .sending _ => s

/-- An octet received on the trunk in TURNAROUND restarts the turnaround timer at 2 octet times
(R138). -/
def State.restartTurnaround (s : State) (l : Line) : State :=
  if l = 0 then
    match s.answer with
    | .turnaround a _ => { s with answer := .turnaround a 2 }
    | .empty => s
    | .sending _ => s
  else s

/-- The turnaround timer expires: the buffer enters SENDING and the answer is handed to the framer
(R137, R138). A stopped timer does not expire (R23). -/
def State.sendAnswer (s : State) : State :=
  match s.answer with
  | .turnaround a _ => ({ s with answer := .sending a } : State).transmit 0 a
  | .empty => s
  | .sending _ => s

/-- A branch controller at a management restart (R128). -/
def BranchLine.restarted (ln : BranchLine) : BranchLine :=
  { ln with
    state := (match ln.state with | .off => .off | _ => .idle)
    queue := []
    broadcast := none
    errors := 0 }

/-- The management restart, in every block at once (R19, R50, R97, R128, R144, R162, R176). -/
def State.restartNow (s : State) : State :=
  let s :=
    match s.otherRole with
    | .staged => s
    | .draining => s.setBank s.live.other s.liveBank
    | .reseeding => s.setBank s.live.other s.liveBank
  { s with
    framers := s.framers.map fun f => { f with mode := .hunt }
    driverEnable := Vector.replicate 5 false
    answer := .empty
    slots := s.slots.map fun c => { c with record := none }
    attn := false
    otherRole := .staged
    drainCount := 0
    lines := s.lines.map BranchLine.restarted
    pendingRestart := false
    trunkCounters := Vector.replicate 10 0
    branchCounters := Vector.replicate 4 (Vector.replicate 11 0) }

/-- The last octet of an answer has been sent: DE0 is released and the buffer is EMPTY, and a pending
restart happens (R137, R138, R144, R161). -/
def State.answerSent (s : State) : State :=
  match s.answer with
  | .sending _ =>
    let s := ({ s with answer := .empty } : State).endTransmission 0
    if s.pendingRestart then s.restartNow else s
  | .empty => s
  | .turnaround _ _ => s

end Sys2Proof.Machine
end

