-- ==== Sys2Proof/Machine/BranchPort.lean ====
section
/-! DEFINITION. The events of a branch line (chapter 6): transmit completion (R109), echo mismatch (R110,
R122), the judging of telegrams (R112 to R116), window expiry (R111) and settle expiry (R117). -/

namespace Sys2Proof.Machine

/-- What a telegram is to an attempt (R112). -/
inductive Verdict where
  | accept | bad | stray
  deriving DecidableEq, Repr

/-- The table of R112, for a telegram with Dest the own address and the sent Seq. -/
def Sought.judge (q : Sought) (t : Telegram) : Verdict :=
  match q with
  | .ask .leaf source =>
    if t.source = source then
      match t.kind with
      | .ans => .accept
      | .fault => .accept
      | .held => .bad
      | .wait => .bad
      | .req => .bad
      | .collect => .bad
    else .stray
  | .ask .relay source =>
    if t.source = source then
      match t.kind with
      | .ans => .accept
      | .fault => .accept
      | .held => .accept
      | .wait => .bad
      | .req => .bad
      | .collect => .bad
    else if t.kind = .held then .accept
    else .stray
  | .collect _ source ticket =>
    if t.source = source then
      match t.kind with
      | .ans => .accept
      | .fault => .accept
      | .held => .bad
      | .wait => if t.code = ticket then .accept else .bad
      | .req => .bad
      | .collect => .bad
    else .stray

/-- A telegram is examined when its Dest is the own address and its Seq the sent sequence (R112). -/
def Exchange.judge (x : Exchange) (own : Octet) (t : Telegram) : Verdict :=
  if t.dest = own ∧ t.seq = x.seq then x.sought.judge t else .stray

/-- An answer accepted for an attempt: reported for its record, or counted for an orphan, and the line
settles (R114, R120). -/
def State.acceptAnswer (s : State) (b : Branch) (x : Exchange) (t : Telegram) : State :=
  match x.record with
  | some i => (s.settle b).reportAnswer i t
  | none => (s.countBranch b .orphans).settle b

/-- An answer rejected as BAD_ANSWER: a failure of its record, or counted for an orphan, and the line
settles (R114, R120). -/
def State.rejectAnswer (s : State) (b : Branch) (x : Exchange) : State :=
  match x.record with
  | some i => ((s.countBranch b .badAnswer).settle b).reportFailure i .badAnswer
  | none => (s.countBranch b .orphans).settle b

/-- A controller takes a valid telegram (R112, R114, R116, R120). In SENDING none is handed over
(R116). -/
def State.branchTake (s : State) (b : Branch) (t : Telegram) : State :=
  match (s.line b).state with
  | .listening x _ =>
    match x.judge s.ownAddress t with
    | .accept => s.acceptAnswer b x t
    | .bad => s.rejectAnswer b x
    | .stray => s.countBranch b .strays
  | .sending _ => s
  | .off => s.countBranch b .strays
  | .faulted => s.countBranch b .strays
  | .idle => s.countBranch b .strays
  | .settling _ => s.countBranch b .strays

/-- The echo of the last octet of a branch transmission has matched (R15, R109, R120). Where echoes before
the last are still expected, the event stands for all of them having matched: DESIGN CHOICE, log entry
17. -/
def State.transmissionDone (s : State) (b : Branch) : State :=
  match (s.line b).state with
  | .sending a =>
    let s := s.endTransmission (lineOf b)
    let s := s.setLine b { s.line b with errors := 0 }
    match a with
    | .exchange x =>
      (s.countBranch b .sent).setLineState b (.listening x (s.line b).settings.window)
    | .broadcast _ => (s.countBranch b .bcastSent).settle b
  | .off => s
  | .faulted => s
  | .idle => s
  | .listening _ _ => s
  | .settling _ => s

/-- What an echo mismatch below the eighth does to the holder of the attempt (R110). -/
def State.attemptFailed (s : State) (b : Branch) (a : Attempt) : State :=
  match a with
  | .exchange x =>
    match x.record with
    | some i => s.reportFailure i .lineError
    | none => s
  | .broadcast _ => s.countBranch b .bcastDropped

/-- An echo mismatch: the transmission is cut, LINE_ERRORS counted, and the attempt fails, or the line
faults at the eighth consecutive one (R110, R122). -/
def State.echoFault (s : State) (b : Branch) : State :=
  match (s.line b).state with
  | .sending a =>
    let s := (s.endTransmission (lineOf b)).countBranch b .lineErrors
    let s := s.setLine b { s.line b with errors := (s.line b).errors + 1 }
    if (s.line b).errors < 8 then (s.settle b).attemptFailed b a else s.lineDown b .faulted
  | .off => s
  | .faulted => s
  | .idle => s
  | .listening _ _ => s
  | .settling _ => s

/-- The answer window expires (R111, R120). -/
def State.windowExpired (s : State) (b : Branch) : State :=
  match (s.line b).state with
  | .listening x _ =>
    let s := (s.countBranch b .noAnswer).settle b
    match x.record with
    | some i => s.reportFailure i .noAnswer
    | none => s
  | .off => s
  | .faulted => s
  | .idle => s
  | .sending _ => s
  | .settling _ => s

/-- The settle timer expires: the line enters IDLE (R117). -/
def State.settled (s : State) (b : Branch) : State :=
  match (s.line b).state with
  | .settling _ => s.enterIdle b
  | .off => s
  | .faulted => s
  | .idle => s
  | .sending _ => s
  | .listening _ _ => s

end Sys2Proof.Machine
end

