-- ==== Sys2Proof/Machine/Framers.lean ====
section
/-! DEFINITION. The receivers of the five framers (R10 to R14), the echo comparison (R18), and the
meanings of the commands that carry an octet or end a gap: OCTET_RECEIVED, BAD_LENGTH,
RECEPTION_COMPLETION and GAP_TIMER_EXPIRY. -/

namespace Sys2Proof.Machine

/-- A valid telegram is handed to the owner of its line (R14). -/
def State.handOver (s : State) (l : Line) (t : Telegram) : State :=
  match branchOf l with
  | none => s.trunkTake t
  | some b => s.branchTake b t

/-- A telegram with a good check is judged for its structure: handed over, or counted RX_MALFORMED
(R11, R13, R14). The receiver stands in HUNT. -/
def State.judgeStructure (s : State) (l : Line) (t : Telegram) : State :=
  if telegramValid t then s.handOver l t else s.countRxMalformed l

/-- The last Check octet has arrived: the check is judged, then the structure (R9, R11, R13). `octets`
are all those since the Lead and `crc` the register after them. -/
def State.judgeTelegram (s : State) (l : Line) (octets : List Octet) (crc : Word) : State :=
  let s := s.setMode l .hunt
  if crc ≠ 0 then s.countRxCheck l
  else
    match readTelegram octets with
    | some t => s.judgeStructure l t
    | none => s.countRxMalformed l

/-- The receiver takes an octet (R10, R11). -/
def State.assemble (s : State) (l : Line) (octet : Octet) : State :=
  match (s.framer l).mode with
  | .hunt => if octet = leadOctet then s.setMode l (.length crcPreset 3) else s
  | .length crc _ =>
    if within 5 53 octet.toNat then
      s.setMode l (.body [octet] (octet.toNat + 2) (crcOctet crc octet) 3)
    else (s.setMode l .hunt).countRxMalformed l
  | .body octets toCome crc _ =>
    if toCome ≤ 1 then s.judgeTelegram l (octets ++ [octet]) (crcOctet crc octet)
    else s.setMode l (.body (octets ++ [octet]) (toCome - 1) (crcOctet crc octet) 3)
  | .transmitting _ _ => s

/-- An octet received on a branch during its transmission is compared with the next octet whose echo is
expected: a match advances the comparison, and completes the transmission at the last; a difference, a
stop bit of 0 or an octet with no echo expected is an echo mismatch (R15, R18). -/
def State.compareEcho (s : State) (b : Branch) (octets echoes : List Octet) (octet : Octet)
    (stopBit : Bool) : State :=
  match echoes with
  | [] => s.echoFault b
  | e :: rest =>
    if octet = e ∧ stopBit = true then
      match rest with
      | [] => s.transmissionDone b
      | _ :: _ => s.setMode (lineOf b) (.transmitting octets rest)
    else s.echoFault b

/-- An octet is received on a line (R1, R10, R11, R17, R18, R138). While the framer transmits, the
octet is compared as an echo on a branch and ignored on the trunk. -/
def State.receiveOctet (s : State) (l : Line) (octet : Octet) (stopBit : Bool) : State :=
  match (s.framer l).mode with
  | .transmitting octets echoes =>
    match branchOf l with
    | none => s
    | some b => s.compareEcho b octets echoes octet stopBit
  | .hunt => (s.restartTurnaround l).assemble l octet
  | .length _ _ => (s.restartTurnaround l).assemble l octet
  | .body _ _ _ _ => (s.restartTurnaround l).assemble l octet

/-- A whole telegram with a good check arrives on a line, up to its reception completion event: the
command stands for its octets, log entry 5. While the framer transmits no telegram completes (R17). -/
def State.receiveTelegram (s : State) (l : Line) (t : Telegram) : State :=
  if (s.framer l).mode.isTransmitting then s
  else ((s.restartTurnaround l).setMode l .hunt).judgeStructure l t

/-- The gap timer expires: the telegram in progress is torn (R12). -/
def State.gapExpired (s : State) (l : Line) : State :=
  if (s.framer l).mode.inProgress then (s.setMode l .hunt).countRxTorn l else s

/-! ### Meanings -/

/-- BAD_LENGTH (R10). -/
def execBadLength (line : Line) (octet : Octet) (s : State) : Host.Outcome State Fault Refusal :=
  .next (s.whenRunning fun s => s.receiveOctet line octet true)

/-- GAP_TIMER_EXPIRY (R12). -/
def execGapTimerExpiry (line : Line) (s : State) : Host.Outcome State Fault Refusal :=
  .next (s.whenRunning fun s => s.gapExpired line)

/-- RECEPTION_COMPLETION (R11). -/
def execReceptionCompletion (line : Line) (octet : Octet) (s : State) :
    Host.Outcome State Fault Refusal :=
  .next (s.whenRunning fun s => s.receiveOctet line octet true)

/-- OCTET_RECEIVED (R1, R10, R11, R18, R138). -/
def execOctetReceived (line : Line) (octet : Octet) (stopBit : Bool) (s : State) :
    Host.Outcome State Fault Refusal :=
  .next (s.whenRunning fun s => s.receiveOctet line octet stopBit)

end Sys2Proof.Machine
end

