-- ==== Sys2Proof/Machine/BranchCommands.lean ====
section
/-! DEFINITION. The meanings of the commands of the branch lines (chapter 6). -/

namespace Sys2Proof.Machine

/-- BRANCH_TRANSMIT_COMPLETION (R15, R109, R120). It stands for the echoes still expected, all matching:
DESIGN CHOICE, log entry 17. -/
def execBranchTransmitCompletion (branch : Branch) (s : State) : Host.Outcome State Fault Refusal :=
  .next (s.whenRunning fun s => s.transmissionDone branch)

/-- ECHO_MISMATCH (R110, R122): any of the four mismatches of R18 has the same effect. -/
def execEchoMismatch (branch : Branch) (_cause : EchoFault) (s : State) :
    Host.Outcome State Fault Refusal :=
  .next (s.whenRunning fun s => s.echoFault branch)

/-- ANSWER_WINDOW_EXPIRY (R111, R120). -/
def execAnswerWindowExpiry (branch : Branch) (s : State) : Host.Outcome State Fault Refusal :=
  .next (s.whenRunning fun s => s.windowExpired branch)

/-- BRANCH_TELEGRAM (R112 to R116): a valid telegram received on a branch. -/
def execBranchTelegram (branch : Branch) (telegram : Telegram) (s : State) :
    Host.Outcome State Fault Refusal :=
  .next (s.whenRunning fun s => s.receiveTelegram (lineOf branch) telegram)

/-- SETTLE_EXPIRY (R117). -/
def execSettleExpiry (branch : Branch) (s : State) : Host.Outcome State Fault Refusal :=
  .next (s.whenRunning fun s => s.settled branch)

end Sys2Proof.Machine
end

