-- ==== Sys2Proof/Machine/Resets.lean ====
section
/-! DEFINITION. Hard reset: its assertion by RESET_N or the power-on detector, and its release with the
sampling of the straps (R2, R129, R186). -/

namespace Sys2Proof.Machine

/-- Every block takes its hard-reset value at once, whatever it is doing (R19, R49, R64, R78, R96, R127,
R143, R165, R176, R186). The own address and the trunk rate, which nothing reads in hard reset, stand
until the release samples them, log entry 11. -/
def State.hardReset (s : State) : State :=
  { State.atReset s.ownAddress (s.framer 0).rate with
    pinReset := s.pinReset
    supplyReset := s.supplyReset
    freeChoices := s.freeChoices
    pending := s.pending }

/-- RESET_N puts the part in hard reset (R186). -/
def State.pinAsserted (s : State) : State := ({ s with pinReset := true } : State).hardReset

/-- The power-on detector puts the part in hard reset (R186). -/
def State.supplyAsserted (s : State) : State := ({ s with supplyReset := true } : State).hardReset

/-- The part leaves hard reset once neither RESET_N nor the detector holds it: the straps are sampled
and every block starts from its reset state (R2, R129, R186). -/
def State.leaveReset (s : State) (address : BitVec 6) (rate : BitVec 3) : State :=
  if s.inReset then s
  else
    { State.atReset (strapAddress address) (strapRate rate) with
      freeChoices := s.freeChoices
      pending := s.pending }

/-- RESET_ASSERT (R186): VDD below its range, or RESET_N low for a time. Below 1 microsecond the pulse
is filtered, from 10 microseconds the part is in hard reset, and between the two either outcome may
occur, log entry 6. -/
def execResetAssert (cause : ResetCause) (s : State) : Host.Outcome State Fault Refusal :=
  .next (match cause with
    | .supplyLow => s.supplyAsserted
    | .pinLow nanoseconds =>
      if nanoseconds < 1000 then s
      else if 10000 ≤ nanoseconds then s.pinAsserted
      else if Config.shortPulseTaken s.freeChoices then
        ({ s with freeChoices := s.freeChoices + 1 } : State).pinAsserted
      else { s with freeChoices := s.freeChoices + 1 })

/-- RESET_RELEASE (R129, R186): RESET_N goes high. -/
def execResetRelease (address : BitVec 6) (rate : BitVec 3) (s : State) :
    Host.Outcome State Fault Refusal :=
  .next (if s.pinReset then ({ s with pinReset := false } : State).leaveReset address rate else s)

/-- POWER_ON_RELEASE (R186): VDD has been in range for 2 ms. -/
def execPowerOnRelease (address : BitVec 6) (rate : BitVec 3) (s : State) :
    Host.Outcome State Fault Refusal :=
  .next
    (if s.supplyReset then ({ s with supplyReset := false } : State).leaveReset address rate else s)

end Sys2Proof.Machine
end

