-- ==== Sys2Proof/Machine/TableEvents.lean ====
section
/-! DEFINITION. The expiries of the record timers (R39, R41, R47) and the completion of the re-seed
(R93). A timer that is stopped has no expiry (R23), so the command of one changes nothing. -/

namespace Sys2Proof.Machine

/-- The lifetime timer of an active record expires (R41). -/
def State.lifetimeExpired (s : State) (i : SlotId) : State :=
  match s.record i with
  | none => s
  | some r => s.completeEarly i (.fault Reason.expired.octet (some (failureDetail r.failure)))

/-- The wait timer of a BACKOFF or DEFERRED record expires: it rejoins its queue, for a retransmission
or for a new COLLECT action with its retries restored (R39, R61). -/
def State.waitExpired (s : State) (i : SlotId) : State :=
  match s.record i with
  | none => s
  | some r =>
    match r.activeState with
    | some (.backoff _) => (s.setRecord i (some (r.withActive .queued))).joinQueue r.branch i
    | some (.deferred _) =>
      (s.setRecord i (some
        { r.withActive .queued with
          branchSeq := none, retries := s.capturedBudget r })).joinQueue r.branch i
    | some .queued => s
    | some .onLine => s
    | none => s

/-- The hold timer of a DONE record expires: FREE, counted UNCLAIMED, and ATTN follows (R26, R47). -/
def State.holdExpired (s : State) (i : SlotId) : State :=
  match s.record i with
  | none => s
  | some r =>
    if r.isDone then ((s.setRecord i none).countTrunk .unclaimed).releaseAttention else s

/-- The linger timer of a DELIVERED record expires: FREE, uncounted (R47). -/
def State.lingerExpired (s : State) (i : SlotId) : State :=
  match s.record i with
  | none => s
  | some r =>
    match r.phase with
    | .delivered _ _ _ => s.setRecord i none
    | .active _ _ => s
    | .done _ _ => s

/-- The re-seed ends: the RESEEDING bank becomes STAGED with the LIVE bank's content (R93). -/
def State.reseeded (s : State) : State :=
  match s.otherRole with
  | .reseeding => { s.setBank s.live.other s.liveBank with otherRole := .staged }
  | .staged => s
  | .draining => s

/-- LIFETIME_EXPIRY (R41). -/
def execLifetimeExpiry (slot : SlotId) (s : State) : Host.Outcome State Fault Refusal :=
  .next (s.whenRunning fun s => s.lifetimeExpired slot)

/-- WAIT_EXPIRY (R39). -/
def execWaitExpiry (slot : SlotId) (s : State) : Host.Outcome State Fault Refusal :=
  .next (s.whenRunning fun s => s.waitExpired slot)

/-- HOLD_EXPIRY (R47). -/
def execHoldExpiry (slot : SlotId) (s : State) : Host.Outcome State Fault Refusal :=
  .next (s.whenRunning fun s => s.holdExpired slot)

/-- LINGER_EXPIRY (R47). -/
def execLingerExpiry (slot : SlotId) (s : State) : Host.Outcome State Fault Refusal :=
  .next (s.whenRunning fun s => s.lingerExpired slot)

/-- RESEED_COMPLETION (R93). -/
def execReseedCompletion (s : State) : Host.Outcome State Fault Refusal :=
  .next (s.whenRunning State.reseeded)

end Sys2Proof.Machine
end

