-- ==== Sys2Proof/Machine/TrunkCommands.lean ====
section
/-! DEFINITION. The meanings of the commands that bring a telegram to the trunk port, and of the two
events of an answer's transmission. Each telegram command is the reception completion event of the
telegram that its operands spell; the trunk port judges it by R130 to R139 (log entries 4 and 5). -/

namespace Sys2Proof.Machine

/-- A valid telegram is received on the trunk. -/
def takeOnTrunk (t : Telegram) (s : State) : Host.Outcome State Fault Refusal :=
  .next (s.whenRunning fun s => s.receiveTelegram 0 t)

/-- A REQ to the own address (R132). -/
def ownRequest (s : State) (source seq code : Octet) (body : List Octet) : Telegram :=
  { dest := s.ownAddress, source := source, kind := .req, seq := seq, code := code, body := body }

/-- ADMISSION (R28 to R34): a REQ to a logical address. -/
def execAdmission (source target seq code : Octet) (body : List Octet) (s : State) :
    Host.Outcome State Fault Refusal :=
  takeOnTrunk
    { dest := target, source := source, kind := .req, seq := seq, code := code, body := body } s

/-- COLLECT (R45, R46): a COLLECT to the own address, with the opening sequence as its Body. -/
def execCollect (source seq ticket opening : Octet) (s : State) :
    Host.Outcome State Fault Refusal :=
  takeOnTrunk
    { dest := s.ownAddress, source := source, kind := .collect, seq := seq, code := ticket,
      body := [opening] } s

/-- BROADCAST_RELAY (R125, R133): a REQ with Dest 0. -/
def execBroadcastRelay (source seq code : Octet) (body : List Octet) (s : State) :
    Host.Outcome State Fault Refusal :=
  takeOnTrunk
    { dest := 0, source := source, kind := .req, seq := seq, code := code, body := body } s

/-- IGNORED (R135): a telegram that passes the bridge by. -/
def execIgnored (telegram : Telegram) (s : State) : Host.Outcome State Fault Refusal :=
  takeOnTrunk telegram s

/-- UNSUPPORTED (R147): a REQ to the own address with a code that is no operation. -/
def execUnsupported (source seq code : Octet) (body : List Octet) (s : State) :
    Host.Outcome State Fault Refusal :=
  takeOnTrunk (ownRequest s source seq code body) s

/-- IDENTIFY, 0x80 (R151). -/
def execIdentify (source seq : Octet) (body : List Octet) (s : State) :
    Host.Outcome State Fault Refusal :=
  takeOnTrunk (ownRequest s source seq 0x80 body) s

/-- READ_SLOT, 0x81 (R152). -/
def execReadSlot (source seq : Octet) (body : List Octet) (s : State) :
    Host.Outcome State Fault Refusal :=
  takeOnTrunk (ownRequest s source seq 0x81 body) s

/-- WRITE_SLOT, 0x82 (R83). -/
def execWriteSlot (source seq : Octet) (body : List Octet) (s : State) :
    Host.Outcome State Fault Refusal :=
  takeOnTrunk (ownRequest s source seq 0x82 body) s

/-- CLEAR_SLOT, 0x83 (R84). -/
def execClearSlot (source seq : Octet) (body : List Octet) (s : State) :
    Host.Outcome State Fault Refusal :=
  takeOnTrunk (ownRequest s source seq 0x83 body) s

/-- READ_PROFILE, 0x84 (R153). -/
def execReadProfile (source seq : Octet) (body : List Octet) (s : State) :
    Host.Outcome State Fault Refusal :=
  takeOnTrunk (ownRequest s source seq 0x84 body) s

/-- WRITE_PROFILE, 0x85 (R85). -/
def execWriteProfile (source seq : Octet) (body : List Octet) (s : State) :
    Host.Outcome State Fault Refusal :=
  takeOnTrunk (ownRequest s source seq 0x85 body) s

/-- COMMIT, 0x86 (R87 to R89). -/
def execCommit (source seq : Octet) (body : List Octet) (s : State) :
    Host.Outcome State Fault Refusal :=
  takeOnTrunk (ownRequest s source seq 0x86 body) s

/-- RETIRE, 0x87 (R92). -/
def execRetire (source seq : Octet) (body : List Octet) (s : State) :
    Host.Outcome State Fault Refusal :=
  takeOnTrunk (ownRequest s source seq 0x87 body) s

/-- READ_LINE, 0x88 (R155). -/
def execReadLine (source seq : Octet) (body : List Octet) (s : State) :
    Host.Outcome State Fault Refusal :=
  takeOnTrunk (ownRequest s source seq 0x88 body) s

/-- WRITE_LINE, 0x89 (R156). -/
def execWriteLine (source seq : Octet) (body : List Octet) (s : State) :
    Host.Outcome State Fault Refusal :=
  takeOnTrunk (ownRequest s source seq 0x89 body) s

/-- READ_RECORDS, 0x8A (R157). -/
def execReadRecords (source seq : Octet) (body : List Octet) (s : State) :
    Host.Outcome State Fault Refusal :=
  takeOnTrunk (ownRequest s source seq 0x8A body) s

/-- CANCEL, 0x8B (R42). -/
def execCancel (source seq : Octet) (body : List Octet) (s : State) :
    Host.Outcome State Fault Refusal :=
  takeOnTrunk (ownRequest s source seq 0x8B body) s

/-- READ_COUNTERS, 0x8C (R159). -/
def execReadCounters (source seq : Octet) (body : List Octet) (s : State) :
    Host.Outcome State Fault Refusal :=
  takeOnTrunk (ownRequest s source seq 0x8C body) s

/-- RESTART, 0x8D (R161). -/
def execRestart (source seq : Octet) (body : List Octet) (s : State) :
    Host.Outcome State Fault Refusal :=
  takeOnTrunk (ownRequest s source seq 0x8D body) s

/-- TURNAROUND_EXPIRY (R137, R138). -/
def execTurnaroundExpiry (s : State) : Host.Outcome State Fault Refusal :=
  .next (s.whenRunning State.sendAnswer)

/-- TRUNK_TRANSMIT_COMPLETION (R137, R144, R161, R162). -/
def execTrunkTransmitCompletion (s : State) : Host.Outcome State Fault Refusal :=
  .next (s.whenRunning State.answerSent)

end Sys2Proof.Machine
end

