-- ==== Sys2Proof/Machine/Dispatch.lean ====
section
/-! DEFINITION. The dispatch of a command to its meaning, one arm for each row of the table. -/

namespace Sys2Proof.Machine

def exec (i : Instr) (s : State) : Host.Outcome State Fault Refusal :=
  match i with
  | .resetAssert cause => Sys2Proof.Machine.execResetAssert cause s
  | .resetRelease address rate => Sys2Proof.Machine.execResetRelease address rate s
  | .powerOnRelease address rate => Sys2Proof.Machine.execPowerOnRelease address rate s
  | .badLength line octet => Sys2Proof.Machine.execBadLength line octet s
  | .gapTimerExpiry line => Sys2Proof.Machine.execGapTimerExpiry line s
  | .receptionCompletion line octet => Sys2Proof.Machine.execReceptionCompletion line octet s
  | .admission source target seq code body => Sys2Proof.Machine.execAdmission source target seq code body s
  | .collect source seq ticket opening => Sys2Proof.Machine.execCollect source seq ticket opening s
  | .broadcastRelay source seq code body => Sys2Proof.Machine.execBroadcastRelay source seq code body s
  | .ignored telegram => Sys2Proof.Machine.execIgnored telegram s
  | .unsupported source seq code body => Sys2Proof.Machine.execUnsupported source seq code body s
  | .identify source seq body => Sys2Proof.Machine.execIdentify source seq body s
  | .readSlot source seq body => Sys2Proof.Machine.execReadSlot source seq body s
  | .writeSlot source seq body => Sys2Proof.Machine.execWriteSlot source seq body s
  | .clearSlot source seq body => Sys2Proof.Machine.execClearSlot source seq body s
  | .readProfile source seq body => Sys2Proof.Machine.execReadProfile source seq body s
  | .writeProfile source seq body => Sys2Proof.Machine.execWriteProfile source seq body s
  | .commit source seq body => Sys2Proof.Machine.execCommit source seq body s
  | .retire source seq body => Sys2Proof.Machine.execRetire source seq body s
  | .readLine source seq body => Sys2Proof.Machine.execReadLine source seq body s
  | .writeLine source seq body => Sys2Proof.Machine.execWriteLine source seq body s
  | .readRecords source seq body => Sys2Proof.Machine.execReadRecords source seq body s
  | .cancel source seq body => Sys2Proof.Machine.execCancel source seq body s
  | .readCounters source seq body => Sys2Proof.Machine.execReadCounters source seq body s
  | .restart source seq body => Sys2Proof.Machine.execRestart source seq body s
  | .turnaroundExpiry => Sys2Proof.Machine.execTurnaroundExpiry s
  | .trunkTransmitCompletion => Sys2Proof.Machine.execTrunkTransmitCompletion s
  | .branchTransmitCompletion branch => Sys2Proof.Machine.execBranchTransmitCompletion branch s
  | .echoMismatch branch cause => Sys2Proof.Machine.execEchoMismatch branch cause s
  | .answerWindowExpiry branch => Sys2Proof.Machine.execAnswerWindowExpiry branch s
  | .branchTelegram branch telegram => Sys2Proof.Machine.execBranchTelegram branch telegram s
  | .settleExpiry branch => Sys2Proof.Machine.execSettleExpiry branch s
  | .lifetimeExpiry slot => Sys2Proof.Machine.execLifetimeExpiry slot s
  | .waitExpiry slot => Sys2Proof.Machine.execWaitExpiry slot s
  | .holdExpiry slot => Sys2Proof.Machine.execHoldExpiry slot s
  | .lingerExpiry slot => Sys2Proof.Machine.execLingerExpiry slot s
  | .reseedCompletion => Sys2Proof.Machine.execReseedCompletion s
  | .octetReceived line octet stopBit => Sys2Proof.Machine.execOctetReceived line octet stopBit s

end Sys2Proof.Machine
end

