-- ==== Sys2Proof/Machine/Step.lean ====
section
/-! DEFINITION. One step: the command at the front of the queue. -/

namespace Sys2Proof.Machine

/-- The command at the front of the queue is taken and executed with the queue's rest. Before it, and
where no command waits, the one thing comes that is no command: last stop bits may end (log entry 10). -/
def step (s : State) : Host.Outcome State Fault Refusal :=
  match s.pending with
  | [] => .next (s.whenRunning State.endStopBits)
  | c :: rest => exec c (({ s with pending := rest } : State).whenRunning State.endStopBits)

/-- The state with the command that a table word spells at the front of its queue. No row of the table
gives bits, so no word spells one and the state is unchanged (log entry 12). -/
def State.withFetchWord (s : State) (nbits w : Nat) : State :=
  match decodeTableWord nbits w with
  | some c => { s with pending := c :: s.pending }
  | none => s

end Sys2Proof.Machine
end

