-- ==== Sys2Proof/Safety.lean ====
section
/-! DEFINITION. What counts as a sound state of the part: the invariants that the rules state of it,
each as a predicate of its own. They hold at reset and every step keeps them. -/

namespace Sys2Proof.Safety

open Sys2Proof.Machine

/-- ATTN is asserted exactly while at least one record is DONE (R26). -/
def AttentionFollowsDone (s : State) : Prop := s.attn = s.someRecord Record.isDone

/-- The drain count and the roles: while a bank is DRAINING the count is the number of active records
that refer to it and is above 0; otherwise it is 0 and no active record refers to the other bank (R79,
R81, R90). -/
def DrainCounted (s : State) : Prop :=
  s.drainCount = s.activeIn s.live.other ∧ (s.otherRole = .draining ↔ 0 < s.drainCount)

/-- DE0 is high exactly while framer 0 transmits. The DE of a branch is high only while its framer
transmits, and is high while the echoes of more octets than the last are expected: it falls at the end
of the last stop bit, before or with the last echo (R15, R16, R18, R187). -/
def DriverFollowsFramer (s : State) : Prop :=
  s.driverEnable.get 0 = (s.framer 0).mode.isTransmitting ∧
  ∀ b : Branch,
    (s.driverEnable.get (lineOf b) = true → (s.framer (lineOf b)).mode.isTransmitting = true) ∧
    ∀ octets first second rest,
      (s.framer (lineOf b)).mode = .transmitting octets (first :: second :: rest) →
      s.driverEnable.get (lineOf b) = true

/-- The last stop bit of a branch transmission is still to come: DE is high, and of the octets sent only
the last has its echo still expected (R15, R18, R187). -/
def LastStopBitToCome (s : State) (b : Branch) : Prop :=
  s.driverEnable.get (lineOf b) = true ∧
  ∃ octets last, (s.framer (lineOf b)).mode = .transmitting octets [last]

/-- A line in SENDING. -/
def LineState.isSending (st : LineState) : Bool :=
  match st with
  | .sending _ => true
  | _ => false

/-- An answer buffer in SENDING. -/
def AnswerBuffer.isSending (a : AnswerBuffer) : Bool :=
  match a with
  | .sending _ => true
  | _ => false

/-- A framer transmits exactly while its owner sends: framer 0 while the answer buffer is SENDING, the
framer of a branch while its line is SENDING (R102, R137, R187). -/
def FramerFollowsOwner (s : State) : Prop :=
  (s.framer 0).mode.isTransmitting = AnswerBuffer.isSending s.answer ∧
  ∀ b : Branch, (s.framer (lineOf b)).mode.isTransmitting = LineState.isSending (s.line b).state

/-- The queue of a branch holds the QUEUED records of the branch, each once (R24, R103). -/
def QueueHoldsQueued (s : State) : Prop :=
  ∀ b : Branch, (s.line b).queue.Nodup ∧
    ∀ i : SlotId, i ∈ (s.line b).queue ↔
      ∃ r, s.record i = some r ∧ r.activeState = some .queued ∧ r.branch = b

/-- The record of a line's current attempt. -/
def LineState.record (st : LineState) : Option SlotId :=
  match st with
  | .sending (.exchange x) => x.record
  | .listening x _ => x.record
  | _ => none

/-- A record is ON_LINE exactly when it is the current attempt of its branch line (R102). -/
def OnLineIsAttempt (s : State) : Prop :=
  ∀ (b : Branch) (i : SlotId), LineState.record (s.line b).state = some i ↔
    ∃ r, s.record i = some r ∧ r.activeState = some .onLine ∧ r.branch = b

/-- A line in OFF or FAULTED has no active record and no buffered broadcast (R43, R122, R123). -/
def DownLineEmpty (s : State) : Prop :=
  ∀ b : Branch, (s.line b).state.isDown = true → s.activeCount b = 0 ∧ (s.line b).broadcast = none

/-- An ASK of a record is held back: another record with the same target and branch and an earlier
admission stamp is QUEUED with action ASK or in BACKOFF with action ASK (R104). -/
def HeldBack (s : State) (r : Record) : Prop :=
  ∃ (j : SlotId) (e : Record), s.record j = some e ∧ e.target = r.target ∧ e.branch = r.branch ∧
    e.admitStamp < r.admitStamp ∧ e.action = .ask ∧
    (e.activeState = some .queued ∨ ∃ w, e.activeState = some (.backoff w))

/-- A record of a queue may be taken: with action COLLECT always, with action ASK where nothing holds it
back (R104). -/
def Eligible (s : State) (i : SlotId) : Prop :=
  ∃ r, s.record i = some r ∧ r.activeState = some .queued ∧
    ((∃ link, r.action = .collect link) ∨ (r.action = .ask ∧ ¬ HeldBack s r))

/-- A line never stays IDLE while a claimant exists (R105). -/
def NoIdleClaimant (s : State) : Prop :=
  ∀ b : Branch, (s.line b).state = .idle →
    (s.line b).broadcast = none ∧ ∀ i ∈ (s.line b).queue, ¬ Eligible s i

/-- The fields of a record that are present under a condition, each present exactly under it (R22): the
branch sequence stands in ON_LINE and BACKOFF, and not in DEFERRED, DONE or DELIVERED, where the action
has ended or has not yet been sent. A DEFERRED record has action COLLECT, which only a RELAY has (R37),
and the outbound Dest of a RELAY is its target (R58). The model's types hold the other conditions: the
collect fields stand with action COLLECT, the result with DONE and DELIVERED, the delivery stamp with
DELIVERED. -/
def RecordFieldsPresent (s : State) : Prop :=
  ∀ (i : SlotId) (r : Record), s.record i = some r →
    ((r.activeState = some .onLine ∨ ∃ w, r.activeState = some (.backoff w)) → r.branchSeq ≠ none) ∧
    (((∃ w, r.activeState = some (.deferred w)) ∨ r.isActive = false) → r.branchSeq = none) ∧
    ((∃ w, r.activeState = some (.deferred w)) → ∃ link, r.action = .collect link) ∧
    (∀ link, r.action = .collect link → r.kind = .relay) ∧
    (r.kind = .relay → r.outbound.dest = r.target)

/-- A line's current attempt of holder RECORD or ORPHAN. -/
def LineState.exchange (st : LineState) : Option Exchange :=
  match st with
  | .sending (.exchange x) => some x
  | .listening x _ => some x
  | _ => none

/-- The current attempt of a record holds the record's branch sequence, its action, its kind, and as
expected source the Dest of its outbound request or its collect address, with the downstream ticket of
a COLLECT (R35, R106). -/
def AttemptHoldsRecord (s : State) : Prop :=
  ∀ (b : Branch) (x : Exchange) (i : SlotId) (r : Record),
    LineState.exchange (s.line b).state = some x → x.record = some i → s.record i = some r →
    r.branchSeq = some x.seq ∧
    (r.action = .ask → x.sought = .ask r.kind r.outbound.dest) ∧
    ∀ link, r.action = .collect link → x.sought = .collect r.kind link.address link.ticket

/-- No two records have the same opener, opening sequence and target (R29). -/
def NoTwinRecords (s : State) : Prop :=
  ∀ (i j : SlotId) (r q : Record), s.record i = some r → s.record j = some q →
    r.opener = q.opener → r.opening = q.opening → r.target = q.target → i = j

/-- The LIVE directory holds no logical address twice and not the own address (R54). -/
def LiveDirectorySound (s : State) : Prop :=
  s.liveBank.duplicateSlot = none ∧ s.liveBank.conflictSlot s.ownAddress = none

/-- The fields of a directory slot that their types do not bound lie in their ranges (R51). -/
def entryInRange (e : DirEntry) : Bool :=
  within 1 250 e.logical.toNat &&
    match e.kind with
    | .leaf => within 1 250 e.node.toNat
    | .relay => within 0 250 e.node.toNat

/-- Every valid slot of every directory holds values in range (R51, R83). -/
def DirectoryInRange (s : State) : Prop :=
  ∀ (k : BankId) (i : Fin 64) (e : DirEntry),
    (s.bank k).directory.get i = some e → entryInRange e = true

/-- The captured slot of an active record is valid in its captured bank, with the branch and the kind
that the record copied, and its retries left do not exceed the slot's budget (R34, R35, R62). -/
def CapturedSlotKept (s : State) : Prop :=
  ∀ (i : SlotId) (r : Record), s.record i = some r → r.isActive = true →
    ∃ e, (s.bank r.bank).directory.get r.dirSlot = some e ∧ e.branch = r.branch ∧
      e.kind = r.kind ∧ r.retries ≤ e.budget.val

/-- The settings of a branch lie in their ranges (R99). -/
def settingsInRange (c : Settings) : Bool :=
  within 5 1000 c.window.toNat && within 0 5000 c.delay.toNat && within 10 10000 c.interval.toNat &&
    within 100 60000 c.lifetime.toNat && within 1 16 c.quota.toNat

/-- Every setting lies in its range (R99, R141), and the enable setting is off exactly in OFF (section
6.3). -/
def SettingsInRange (s : State) : Prop :=
  within 100 60000 s.holdTime.toNat = true ∧ within 100 10000 s.lingerTime.toNat = true ∧
  ∀ b : Branch, settingsInRange (s.line b).settings = true ∧
    ((s.line b).settings.enable = false ↔ (s.line b).state = .off)

/-- The consecutive-line-error count lies from 0 to 8, and is 8 in FAULTED and below 8 in every state
but OFF and FAULTED (R98, R122, R123). -/
def ErrorCountBounded (s : State) : Prop :=
  ∀ b : Branch, (s.line b).errors ≤ 8 ∧ ((s.line b).state = .faulted → (s.line b).errors = 8) ∧
    ((s.line b).state.isDown = false → (s.line b).errors < 8)

/-- A pending rate differs from the rate in use, and without one the rate setting is the rate in use
(R100). -/
def PendingRateDiffers (s : State) : Prop :=
  ∀ b : Branch, match (s.line b).pendingRate with
    | some r => r = (s.line b).settings.rate ∧ r ≠ (s.framer (lineOf b)).rate
    | none => (s.line b).settings.rate = (s.framer (lineOf b)).rate

/-- A pending restart waits for its own answer, which the buffer holds: ANS with Code 0x8D and an empty
Body (R161). -/
def RestartHasAnswer (s : State) : Prop :=
  s.pendingRestart = true →
    ∃ a, (s.answer = .sending a ∨ ∃ n, s.answer = .turnaround a n) ∧ a.kind = .ans ∧
      a.code = 0x8D ∧ a.body = []

/-- Of two records the one admitted earlier has the earlier stamp: stamps differ and lie below the next
(R22). -/
def StampsOrdered (s : State) : Prop :=
  (∀ (i : SlotId) (r : Record), s.record i = some r → r.admitStamp < s.nextAdmission) ∧
  (∀ (i j : SlotId) (r q : Record), s.record i = some r → s.record j = some q →
    r.admitStamp = q.admitStamp → i = j)

/-- Of two DELIVERED records the one first delivered earlier has the earlier stamp: stamps differ and
lie below the next (R22, R33). -/
def DeliveriesOrdered (s : State) : Prop :=
  (∀ (i : SlotId) (stamp : Nat), s.deliveryStamp i = some stamp → stamp < s.nextDelivery) ∧
  (∀ (i j : SlotId) (stamp : Nat), s.deliveryStamp i = some stamp →
    s.deliveryStamp j = some stamp → i = j)

/-- The own address is one that the address straps can give: 1 to 63, or 250 (R129). -/
def OwnAddressFromStraps (s : State) : Prop :=
  within 1 63 s.ownAddress.toNat = true ∨ s.ownAddress = 250

/-! ### The situations in which the statements see a command taken -/

/-- The trunk takes a telegram: the part is out of hard reset, nothing is in progress on line 0 and the
answer buffer is EMPTY (R17, R137). -/
def TrunkReady (s : State) : Prop :=
  s.inReset = false ∧ (s.framer 0).mode = .hunt ∧ s.answer = .empty

/-- The trunk takes a telegram to the own address (R129, R132). -/
def ManagementReady (s : State) : Prop := TrunkReady s ∧ stationAddress s.ownAddress = true

/-- An answer to a telegram addressed to the bridge itself (R136). -/
def ownAnswer (s : State) (dest seq : Octet) (kind : Kind) (code : Octet) (body : List Octet) :
    Telegram :=
  { dest := dest, source := s.ownAddress, kind := kind, seq := seq, code := code, body := body }

/-- The state with an answer placed in the buffer, its turnaround timer started with 2 octet times
(R137, R138). -/
def answering (s : State) (a : Telegram) : State := { s with answer := .turnaround a 2 }

/-- Every block at the value its chapter gives for hard reset; the own address and the trunk rate come
from the straps and are left out (R19, R49, R64, R78, R96, R127, R143, R165, R176). -/
def AtHardResetValues (t : State) : Prop :=
  (∀ l : Line, (t.framer l).mode = .hunt ∧ t.driverEnable.get l = false) ∧
  (∀ b : Branch, (t.framer (lineOf b)).rate = 4) ∧
  t.answer = .empty ∧ t.holdTime = 30000 ∧ t.lingerTime = 2000 ∧
  (∀ i : SlotId, t.record i = none ∧ t.issue i = 0) ∧ t.attn = false ∧
  t.live = .a ∧ t.otherRole = .staged ∧ t.generation = 0 ∧ t.drainCount = 0 ∧
  (∀ (k : BankId) (i : Fin 64), (t.bank k).directory.get i = none) ∧
  (∀ (k : BankId) (p : Fin 8),
    (∀ n : Fin 32, (((t.bank k).profiles.get p).ops.get n).code.toNat = n.val ∧
      (((t.bank k).profiles.get p).ops.get n).cls =
        if n.val ≤ 0x07 then .read else if n.val ≤ 0x0F then .write else .control) ∧
    ((t.bank k).profiles.get p).offset = 0 ∧
    ∀ r : Fin 16, (((t.bank k).profiles.get p).faults.get r).toNat = r.val) ∧
  (∀ b : Branch, t.line b =
    { state := .idle
      settings :=
        { enable := true, rate := 4, window := 50, delay := 100, interval := 200, lifetime := 5000,
          quota := 4 }
      pendingRate := none, queue := [], broadcast := none, seq := 0, errors := 0 }) ∧
  t.pendingRestart = false ∧
  (∀ c : TrunkCounter, t.trunkCount c = 0) ∧
  (∀ (b : Branch) (c : BranchCounter), t.branchCount b c = 0)

/-- A valid telegram on the trunk that the bridge ignores: an answer of any kind, a COLLECT that is not
to the own address, a broadcast of another code, and a REQ to an address that the LIVE directory does
not hold (R133, R134, R135). -/
def PassesBy (s : State) (t : Telegram) : Prop :=
  (t.kind ≠ .req ∧ t.kind ≠ .collect) ∨
  (t.kind = .collect ∧ t.dest ≠ s.ownAddress) ∨
  (t.kind = .req ∧ t.dest ≠ s.ownAddress ∧ t.dest = 0 ∧ 0x1F < t.code.toNat) ∨
  (t.kind = .req ∧ t.dest ≠ s.ownAddress ∧ t.dest ≠ 0 ∧
    ∀ (d : Fin 64) (e : DirEntry), s.liveBank.directory.get d = some e → e.logical ≠ t.dest)

/-- Slot `d` of the LIVE directory represents the address `a` with the fields `e`, and no other slot
does (R54). -/
def Represents (s : State) (a : Octet) (d : Fin 64) (e : DirEntry) : Prop :=
  s.liveBank.directory.get d = some e ∧ e.logical = a ∧
  ∀ (j : Fin 64) (f : DirEntry), s.liveBank.directory.get j = some f → f.logical = a → j = d

/-- A REQ that repeats the request of a record (R29). -/
def Repeats (r : Record) (source seq target : Octet) : Prop :=
  r.opener = source ∧ r.opening = seq ∧ r.target = target

/-- The REQ of an ADMISSION command. -/
def request (source target seq code : Octet) (body : List Octet) : Telegram :=
  { dest := target, source := source, kind := .req, seq := seq, code := code, body := body }

/-- A REQ to a represented address that meets no duplicate: the checks after the first (R28). -/
structure ReachesAdmission (s : State) (source target seq : Octet) (body : List Octet) (d : Fin 64)
    (e : DirEntry) : Prop where
  ready : TrunkReady s
  sourceFits : stationAddress source = true
  targetFits : stationAddress target = true
  bodyFitsOk : bodyFits body = true
  notOwn : target ≠ s.ownAddress
  represented : Represents s target d e
  notRepeated : ∀ (j : SlotId) (q : Record), s.record j = some q → ¬ Repeats q source seq target

/-- The answer to a REQ that admission refuses, with its count (R28). -/
def refused (s : State) (source target seq reason : Octet) : State :=
  (answering s
    { dest := source, source := target, kind := .fault, seq := seq, code := reason,
      body := [] }).countTrunk .refused

/-- The class `c` that a request with a code has through a slot kind and a profile (R30, R59, R67). -/
def HasClass (p : Profile) (k : StationKind) (code : Octet) (c : OpClass) : Prop :=
  (code.toNat ≤ 0x1F ∧ c = (p.ops.get (Fin.ofNat 32 code.toNat)).cls ∧ c ≠ .refuse) ∨
  (k = .relay ∧ 0x80 ≤ code.toNat ∧ code.toNat ≤ 0x8F ∧ c = .control)

/-- The access modes that refuse a class (R30, R60). -/
def Denies (a : Access) (c : OpClass) : Prop := a = .closed ∨ (a = .readOnly ∧ c ≠ .read)

/-- The shape that a Body must have for its class (R31, R68, R69, R70). -/
def ShapeFits (c : OpClass) (body : List Octet) : Prop :=
  (c = .read → body.length = 3 ∧ within 1 48 (body.getD 2 0).toNat = true) ∧
  (c = .write → 3 ≤ body.length ∧ body.length ≤ 48) ∧
  (c = .control → body.length ≤ 48)

/-- The head's register plus the register offset, as integers (R71). -/
def registerSum (p : Profile) (body : List Octet) : Int :=
  ((wordOf (body.getD 0 0) (body.getD 1 0)).toNat : Int) + p.offset.toInt

/-- The record in the slot that a quoted ticket names, at its issue, of the opener and the opening
sequence quoted (R20, R42, R45). -/
def Quotes (s : State) (ticket source opening : Octet) (i : SlotId) (r : Record) : Prop :=
  i.val = ticket.toNat % 16 ∧ s.record i = some r ∧ (s.issue i).toNat = ticket.toNat / 16 ∧
  r.opener = source ∧ r.opening = opening

/-- The Body lengths that a management operation permits (R150). -/
def permittedLengths (code : Octet) : List Nat :=
  match code.toNat with
  | 0x81 => [2]
  | 0x82 => [8]
  | 0x83 => [1]
  | 0x84 => [3]
  | 0x85 => [3, 4]
  | 0x86 => [1]
  | 0x88 => [1]
  | 0x89 => [5, 12]
  | 0x8B => [2]
  | 0x8C => [2]
  | _ => [0]

/-- The checks of a Body in the order of R146, each with the detail of its refusal: the length with
255, and each field with its offset, a two-octet field read with its most significant octet first. A
length that depends on a field is checked after that field (R146, R148); the ranges are those of R83,
R85, R99, R141 and R150. -/
def bodyChecks (code : Octet) (body : List Octet) : List (Octet × Bool) :=
  let octet (n : Nat) : Nat := (body.getD n 0).toNat
  let field (n low high : Nat) : Octet × Bool := (octetOf n, within low high (octet n))
  let field2 (n low high : Nat) : Octet × Bool :=
    (octetOf n, within low high (octet n * 256 + octet (n + 1)))
  let length (ok : Bool) : Octet × Bool := (255, ok)
  length ((permittedLengths code).contains body.length) ::
  match code.toNat with
  | 0x81 => [field 0 0 1, field 1 0 63]
  | 0x82 =>
    [field 0 0 63, field 1 1 250, field 2 1 4, field 3 0 1, field 4 (if octet 3 = 0 then 1 else 0) 250,
      field 5 0 7, field 6 0 2, field 7 0 7]
  | 0x83 => [field 0 0 63]
  | 0x84 => [field 0 0 1, field 1 0 7, field 2 0 48]
  | 0x85 =>
    [field 0 0 7, field 1 0 48, length (body.length == if octet 1 ≤ 32 then 4 else 3)] ++
      if octet 1 ≤ 31 then [field 3 0 3] else []
  | 0x88 => [field 0 0 4]
  | 0x89 =>
    [field 0 0 4, length (body.length == if octet 0 = 0 then 5 else 12)] ++
      if octet 0 = 0 then [field2 1 100 60000, field2 3 100 10000]
      else
        [field 1 0 1, field 2 0 5, field2 3 5 1000, field2 5 0 5000, field2 7 10 10000,
          field2 9 100 60000, field 11 1 16]
  | 0x8C => [field 0 0 4, field 1 0 1]
  | _ => []

/-- The detail with which an operation refuses a Body: that of the first check that fails (R146). -/
def bodyRefusal (code : Octet) (body : List Octet) : Option Octet :=
  ((bodyChecks code body).find? fun c => !c.2).map Prod.fst

/-- The fourteen operations with their codes, each as the command that carries it (R150). -/
def operations (source seq : Octet) (body : List Octet) : List (Octet × Instr) :=
  [(0x80, .identify source seq body), (0x81, .readSlot source seq body),
   (0x82, .writeSlot source seq body), (0x83, .clearSlot source seq body),
   (0x84, .readProfile source seq body), (0x85, .writeProfile source seq body),
   (0x86, .commit source seq body), (0x87, .retire source seq body),
   (0x88, .readLine source seq body), (0x89, .writeLine source seq body),
   (0x8A, .readRecords source seq body), (0x8B, .cancel source seq body),
   (0x8C, .readCounters source seq body), (0x8D, .restart source seq body)]

/-- The refusal of a management operation, with its count (R145, R149). -/
def refusedOwn (s : State) (source seq reason : Octet) (detail : List Octet) : State :=
  (answering s (ownAnswer s source seq .fault reason detail)).countTrunk .refused

/-- Two valid slots of a bank share a logical address, `i` being one of them (R88). -/
def SharesAddress (k : Bank) (i : Fin 64) : Prop :=
  ∃ (j : Fin 64) (e f : DirEntry), j ≠ i ∧ k.directory.get i = some e ∧ k.directory.get j = some f ∧
    e.logical = f.logical

/-- A valid slot that holds an address (R88). -/
def HoldsAddress (k : Bank) (i : Fin 64) (a : Octet) : Prop :=
  ∃ e : DirEntry, k.directory.get i = some e ∧ e.logical = a

/-- A slot whose record RETIRE revokes: active, its captured bank not the LIVE one (R44). -/
def revokes (s : State) (i : SlotId) : Bool :=
  (s.record i).any fun r => r.isActive && r.bank != s.live

/-- A line's attempt becomes an ORPHAN where its record is revoked: its record field is dropped (R44,
R106, R120). -/
def revokedAttempt (s : State) (x : Exchange) : Exchange :=
  if x.record.any (revokes s) then { x with record := none } else x

/-- The settings of a branch as WRITE_LINE carries them, after the line (R150). -/
def settingsOctets (c : Settings) : List Octet :=
  boolCode c.enable :: rateOctet c.rate :: (wordOctets c.window ++ wordOctets c.delay ++
    wordOctets c.interval ++ wordOctets c.lifetime ++ [c.quota])

/-- The state of a branch line at the cut or the end of its transmission: DE low, the receiver in HUNT
(R15, R16, R187). -/
def cut (s : State) (b : Branch) : State :=
  { s with
    framers := s.framers.set (lineOf b) { s.framer (lineOf b) with mode := .hunt }
    driverEnable := s.driverEnable.set (lineOf b) false }

/-- A branch line is SENDING an attempt, its framer transmitting (R102, R187). -/
def Sends (s : State) (b : Branch) (a : Attempt) : Prop :=
  s.inReset = false ∧ (s.line b).state = .sending a ∧
  (s.framer (lineOf b)).mode.isTransmitting = true

/-- A branch line hears a valid telegram, its receiver in HUNT (R14, R112). -/
def Hears (s : State) (b : Branch) (t : Telegram) : Prop :=
  s.inReset = false ∧ (s.framer (lineOf b)).mode = .hunt ∧ telegramValid t = true

/-- The events of one branch line (chapter 6). -/
def isEventOf (c : Instr) (b : Branch) : Prop :=
  c = .branchTransmitCompletion b ∨ (∃ cause, c = .echoMismatch b cause) ∨
  c = .answerWindowExpiry b ∨ (∃ t, c = .branchTelegram b t) ∨ c = .settleExpiry b ∨
  (∃ o stop, c = .octetReceived (lineOf b) o stop) ∨ c = .gapTimerExpiry (lineOf b) ∨
  (∃ o, c = .badLength (lineOf b) o) ∨ ∃ o, c = .receptionCompletion (lineOf b) o

/-- The octets received one after another on a line, each with its stop bit sampled as 1. -/
def receiveAll (l : Line) : List Octet → State → Host.Outcome State Fault Refusal
  | [], s => .next s
  | o :: rest, s =>
    match exec (.octetReceived l o true) s with
    | .next t => receiveAll l rest t
    | .fault e => .fault e
    | .refused e => .refused e

end Sys2Proof.Safety
end

