-- ==== Sys2Proof/Certificates/Slice0/Obligations.lean ====
section
/-! DEFINITION. The statements about the HB-410: what each command does, what the shared operations do,
and the invariants that every step keeps. -/

section

open Sys2Proof Sys2Proof.Machine Sys2Proof.Safety

/-! ### The queue of commands -/

/-- A step takes the command at the front of the queue and runs it with the queue's rest; with nothing
waiting the state stays as it is. R15, R187: where a branch has DE high and of its transmission only the
last echo is still expected, its last stop bit may end before the command: its DE then falls, each
branch's at its own time, and nothing else changes. Which of them end is a free value, and its place in
the step is the model's choice (log entry 10). -/
def Obligations.StepRunsFrontCommand : Prop :=
  (∀ (c : Instr) (rest : List Instr) (s : State),
    s.inReset = true ∨ (∀ b, ¬ LastStopBitToCome s b) →
      step { s with pending := c :: rest } = exec c { s with pending := rest }) ∧
  (∀ s : State, s.pending = [] → s.inReset = true ∨ (∀ b, ¬ LastStopBitToCome s b) →
    step s = .next s) ∧
  ∀ s : State, s.inReset = false → (∃ b, LastStopBitToCome s b) →
    ∃ u, u = { s with driverEnable := u.driverEnable, freeChoices := s.freeChoices + 1 } ∧
      u.driverEnable.get 0 = s.driverEnable.get 0 ∧
      (∀ b : Branch,
        (LastStopBitToCome s b →
          u.driverEnable.get (lineOf b) = !Config.stopBitEnds s.freeChoices b) ∧
        (¬ LastStopBitToCome s b →
          u.driverEnable.get (lineOf b) = s.driverEnable.get (lineOf b))) ∧
      (s.pending = [] → step s = .next u) ∧
      ∀ c rest, s.pending = c :: rest → step s = exec c { u with pending := rest }

/-- Every command completes in every state and leaves the waiting commands as they are. That an event
which cannot occur in a state completes there and changes nothing is the model's reading (log entry 3),
and the queue of waiting commands is the model's own. -/
def Obligations.EveryCommandCompletes : Prop :=
  ∀ (c : Instr) (s : State), ∃ t, exec c s = .next t ∧ t.pending = s.pending

/-! ### Hard reset -/

/-- R186: VDD below its range, or RESET_N low for at least 10 µs, holds the part in hard reset, by its
own hold, with every block at its hard-reset value; a pulse below 1 µs has no effect; between the two,
one of the two outcomes occurs. That such a pulse advances freeChoices, a field of the model's own, is
the model's choice (log entry 6); that each hold is a bit of its own is its reading (log entry 16). -/
def Obligations.HardResetHoldsThePart : Prop :=
  ∀ s : State,
    (∀ cause : ResetCause, cause = .supplyLow ∨ (∃ n, 10000 ≤ n ∧ cause = .pinLow n) →
      ∃ t, exec (.resetAssert cause) s = .next t ∧ t.inReset = true ∧
        (cause = .supplyLow → t.supplyReset = true ∧ t.pinReset = s.pinReset) ∧
        (cause ≠ .supplyLow → t.pinReset = true ∧ t.supplyReset = s.supplyReset) ∧
        AtHardResetValues t ∧ t.pending = s.pending) ∧
    (∀ n, n < 1000 → exec (.resetAssert (.pinLow n)) s = .next s) ∧
    (∀ n, 1000 ≤ n → n < 10000 →
      exec (.resetAssert (.pinLow n)) s = .next { s with freeChoices := s.freeChoices + 1 } ∨
      ∃ t, exec (.resetAssert (.pinLow n)) s = .next t ∧ t.pinReset = true ∧ AtHardResetValues t ∧
        t.pending = s.pending)

/-- R2, R129, R186: the part leaves hard reset when neither RESET_N nor the detector holds it; the
address and rate straps are sampled and every block stands at its hard-reset value. While the other of
the two still holds the part, nothing else changes, and a release of what does not hold it has no
effect (log entry 3, the model's reading). -/
def Obligations.ReleaseSamplesStraps : Prop :=
  ∀ (s : State) (address : BitVec 6) (rate : BitVec 3),
    let released (t : State) : Prop :=
      t.inReset = false ∧ AtHardResetValues t ∧ t.pending = s.pending ∧
      t.ownAddress.toNat = (if address.toNat = 0 then 250 else address.toNat) ∧
      (t.framer 0).rate.val = (if rate.toNat ≤ 5 then rate.toNat else 0)
    (s.pinReset = true → s.supplyReset = false →
      ∃ t, exec (.resetRelease address rate) s = .next t ∧ released t) ∧
    (s.pinReset = true → s.supplyReset = true →
      exec (.resetRelease address rate) s = .next { s with pinReset := false }) ∧
    (s.pinReset = false → exec (.resetRelease address rate) s = .next s) ∧
    (s.supplyReset = true → s.pinReset = false →
      ∃ t, exec (.powerOnRelease address rate) s = .next t ∧ released t) ∧
    (s.supplyReset = true → s.pinReset = true →
      exec (.powerOnRelease address rate) s = .next { s with supplyReset := false }) ∧
    (s.supplyReset = false → exec (.powerOnRelease address rate) s = .next s)

/-- R19, R143, R176: while the part is in hard reset, no command but a reset's changes anything. -/
def Obligations.HardResetTakesNothing : Prop :=
  ∀ (c : Instr) (s : State), s.inReset = true →
    (∀ cause, c ≠ .resetAssert cause) → (∀ a r, c ≠ .resetRelease a r) →
    (∀ a r, c ≠ .powerOnRelease a r) → exec c s = .next s

/-! ### The receivers and the echo comparison -/

/-- R10: the Lead in HUNT and the Length octet in LENGTH, in range or bad. On the trunk an octet also
restarts a running turnaround timer (R138). -/
def Obligations.ReceiverTakesLeadAndLength : Prop :=
  ∀ (s : State) (l : Line) (o : Octet) (stop : Bool), s.inReset = false →
    let u := s.restartTurnaround l
    ((s.framer l).mode = .hunt →
      (o = 0xC5 → exec (.octetReceived l o stop) s = .next (u.setMode l (.length 0xFFFF 3))) ∧
      (o ≠ 0xC5 → exec (.octetReceived l o stop) s = .next u)) ∧
    (∀ crc gap, (s.framer l).mode = .length crc gap →
      (5 ≤ o.toNat → o.toNat ≤ 53 →
        exec (.octetReceived l o stop) s =
          .next (u.setMode l (.body [o] (o.toNat + 2) (crcOctet crc o) 3))) ∧
      (o.toNat < 5 ∨ 53 < o.toNat →
        exec (.octetReceived l o stop) s = .next ((u.setMode l .hunt).countRxMalformed l) ∧
        exec (.badLength l o) s = .next ((u.setMode l .hunt).countRxMalformed l)))

/-- R11 to R14: an octet of the Body is stored; the last Check octet has the telegram judged by its
check, then by its structure, and a valid one handed to the owner of the line; a gap in LENGTH or in
BODY tears it. In HUNT and while the framer transmits no gap timer runs, and its expiry has no effect
(log entry 3, the model's reading). -/
def Obligations.TelegramsJudgedOrTorn : Prop :=
  (∀ (s : State) (l : Line), s.inReset = false →
    (∀ crc gap, (s.framer l).mode = .length crc gap →
      exec (.gapTimerExpiry l) s = .next ((s.setMode l .hunt).countRxTorn l)) ∧
    (∀ octets toCome crc gap, (s.framer l).mode = .body octets toCome crc gap →
      exec (.gapTimerExpiry l) s = .next ((s.setMode l .hunt).countRxTorn l)) ∧
    ((s.framer l).mode = .hunt ∨ (s.framer l).mode.isTransmitting = true →
      exec (.gapTimerExpiry l) s = .next s)) ∧
  ∀ (s : State) (l : Line) (octets : List Octet) (toCome gap : Nat) (crc : Word) (o : Octet),
    s.inReset = false → (s.framer l).mode = .body octets toCome crc gap →
    let u := (s.restartTurnaround l).setMode l .hunt
    (1 < toCome → ∀ stop, exec (.octetReceived l o stop) s =
      .next ((s.restartTurnaround l).setMode l
        (.body (octets ++ [o]) (toCome - 1) (crcOctet crc o) 3))) ∧
    (toCome = 1 → crcOctet crc o ≠ 0 →
      exec (.receptionCompletion l o) s = .next (u.countRxCheck l)) ∧
    (toCome = 1 → crcOctet crc o = 0 → readTelegram (octets ++ [o]) = none →
      exec (.receptionCompletion l o) s = .next (u.countRxMalformed l)) ∧
    (toCome = 1 → crcOctet crc o = 0 → ∀ t, readTelegram (octets ++ [o]) = some t →
      (telegramValid t = false →
        exec (.receptionCompletion l o) s = .next (u.countRxMalformed l)) ∧
      (telegramValid t = true →
        (l = 0 → exec (.receptionCompletion l o) s = .next (u.trunkTake t)) ∧
        ∀ b : Branch, l = lineOf b →
          exec (.receptionCompletion l o) s = .next (u.branchTake b t)))

/-- R4 to R14: the octets that a framer sends for a valid telegram, received one after another from
HUNT, are that telegram: its check is good, its fields are read back, and it is handed to the owner.
The telegram commands stand for such a reception (log entry 5), and a trunk telegram of any sort may
come as the row IGNORED (log entry 4), both the model's choices. -/
def Obligations.OctetsMakeTheTelegram : Prop :=
  ∀ (s : State) (t : Telegram), telegramValid t = true →
    ((s.framer 0).mode = .hunt → receiveAll 0 (telegramOctets t) s = exec (.ignored t) s) ∧
    ∀ b : Branch, (s.framer (lineOf b)).mode = .hunt →
      receiveAll (lineOf b) (telegramOctets t) s = exec (.branchTelegram b t) s

/-- R15, R18: a branch transmission whose echoes all come back as they were sent ends with its transmit
completion; the first that differs, or whose stop bit is low, is an echo mismatch (log entry 13). That
the command of the transmit completion may stand for all the echoes still expected is the model's choice
(log entry 17). -/
def Obligations.EchoesEndTheTransmission : Prop :=
  ∀ (s : State) (b : Branch) (a : Attempt) (octets echoes : List Octet), s.inReset = false →
    (s.line b).state = .sending a →
    (s.framer (lineOf b)).mode = .transmitting octets echoes → echoes ≠ [] →
    receiveAll (lineOf b) echoes s = exec (.branchTransmitCompletion b) s ∧
    ∀ (matched rest : List Octet) (e o : Octet) (stop : Bool) (cause : EchoFault),
      echoes = matched ++ e :: rest → (o ≠ e ∨ stop = false) →
      ∃ t, receiveAll (lineOf b) matched s = .next t ∧
        exec (.octetReceived (lineOf b) o stop) t = exec (.echoMismatch b cause) s

/-! ### The trunk port -/

/-- R135, R139, R169: a telegram that passes the bridge by is counted IGNORED whatever the answer
buffer holds, and any other that completes in TURNAROUND is an overrun: a REQ for admission, a COLLECT,
a broadcast for relay, a REQ to the own address. It counts OVERRUN and changes nothing else,
but that its octets restart a running turnaround timer (R138). That a row's telegram is judged by its content, whatever the
row, is the model's choice (log entry 4). -/
def Obligations.IgnoredAndOverrunTelegrams : Prop :=
  (∀ (s : State) (t : Telegram), s.inReset = false → (s.framer 0).mode = .hunt →
    telegramValid t = true →
    (PassesBy s t →
      (s.answer = .empty → exec (.ignored t) s = .next (s.countTrunk .ignored)) ∧
      ∀ a n, s.answer = .turnaround a n →
        exec (.ignored t) s = .next ((answering s a).countTrunk .ignored)) ∧
    (¬ PassesBy s t → ∀ a n, s.answer = .turnaround a n →
      exec (.ignored t) s = .next ((answering s a).countTrunk .overrun))) ∧
  ∀ (s : State) (a : Telegram) (n : Nat) (source seq code : Octet) (body : List Octet),
    s.inReset = false → (s.framer 0).mode = .hunt → s.answer = .turnaround a n →
    stationAddress source = true → bodyFits body = true →
    let overrun := (answering s a).countTrunk .overrun
    (∀ target d e, stationAddress target = true → target ≠ s.ownAddress →
      s.liveBank.directory.get d = some e → e.logical = target →
      exec (.admission source target seq code body) s = .next overrun) ∧
    (s.ownAddress ≠ 0 → code.toNat ≤ 0x1F →
      exec (.broadcastRelay source seq code body) s = .next overrun) ∧
    (stationAddress s.ownAddress = true →
      (∀ ticket opening, exec (.collect source seq ticket opening) s = .next overrun) ∧
      exec (.unsupported source seq code body) s = .next overrun ∧
      ∀ op ∈ operations source seq body, exec op.2 s = .next overrun)

/-- R21, R34: a REQ that passes every check takes the lowest FREE slot; HELD with the new ticket is
placed, ADMITTED counted, and the record joins the tail of its queue, where the controller looks for a
claimant. -/
def Obligations.AdmissionOpensRecord : Prop :=
  ∀ (s : State) (source target seq code : Octet) (body : List Octet) (d : Fin 64) (e : DirEntry)
    (out : Outbound) (i : SlotId),
    ReachesAdmission s source target seq body d e →
    requestOutbound s.liveBank e (request source target seq code body) = .ok out →
    (s.line e.branch).state.isDown = false →
    s.activeCount e.branch < (s.line e.branch).settings.quota.toNat →
    s.record i = none → (∀ j, j < i → s.record j ≠ none) →
    let record : Record :=
      { opener := source, opening := seq, headCode := code, target := target, bank := s.live,
        dirSlot := d, branch := e.branch, kind := e.kind, outbound := out, action := .ask,
        branchSeq := none, retries := e.budget.val, failure := none, admitStamp := s.nextAdmission,
        phase := .active .queued (s.line e.branch).settings.lifetime }
    let admitted : State :=
      { s with
        slots := s.slots.set i { issue := s.issue i + 1, record := some record }
        nextAdmission := s.nextAdmission + 1
        answer :=
          .turnaround (ownAnswer s source seq .held (ticketOf (s.issue i + 1) i) []) 2
        trunkCounters := (s.countTrunk .admitted).trunkCounters
        lines :=
          s.lines.set e.branch
            { s.line e.branch with queue := (s.line e.branch).queue ++ [i] } }
    exec (.admission source target seq code body) s = .next (admitted.look e.branch)

/-- R28, R32, R33: the first check that fails decides the reason of the FAULT, sent from the target and
counted in REFUSED, and nothing else changes. -/
def Obligations.AdmissionRefusesInOrder : Prop :=
  ∀ (s : State) (source target seq code : Octet) (body : List Octet) (d : Fin 64) (e : DirEntry),
    ReachesAdmission s source target seq body d e →
    (∀ reason, requestOutbound s.liveBank e (request source target seq code body) = .error reason →
      exec (.admission source target seq code body) s =
        .next (refused s source target seq reason.octet)) ∧
    ∀ out, requestOutbound s.liveBank e (request source target seq code body) = .ok out →
      ((s.line e.branch).state.isDown = true →
        exec (.admission source target seq code body) s = .next (refused s source target seq 0x04)) ∧
      ((s.line e.branch).state.isDown = false →
        (s.line e.branch).settings.quota.toNat ≤ s.activeCount e.branch →
        exec (.admission source target seq code body) s = .next (refused s source target seq 0x05)) ∧
      ((s.line e.branch).state.isDown = false →
        s.activeCount e.branch < (s.line e.branch).settings.quota.toNat →
        (∀ i, ∃ r, s.record i = some r ∧ r.deliveryStamp = none) →
        exec (.admission source target seq code body) s = .next (refused s source target seq 0x07))

/-- R33: with no slot FREE, the DELIVERED record with the earliest delivery stamp is reclaimed, its
issue kept, and the request is admitted as if its slot had been FREE. -/
def Obligations.AdmissionReclaimsEarliestDelivered : Prop :=
  ∀ (s : State) (source target seq code : Octet) (body : List Octet) (d : Fin 64) (e : DirEntry)
    (out : Outbound) (i : SlotId) (stamp : Nat),
    ReachesAdmission s source target seq body d e →
    requestOutbound s.liveBank e (request source target seq code body) = .ok out →
    (s.line e.branch).state.isDown = false →
    s.activeCount e.branch < (s.line e.branch).settings.quota.toNat →
    (∀ j, s.record j ≠ none) → s.deliveryStamp i = some stamp →
    (∀ j later, j ≠ i → s.deliveryStamp j = some later → stamp < later) →
    exec (.admission source target seq code body) s =
      exec (.admission source target seq code body) (s.setRecord i none)

/-- R29: a REQ that repeats the opener, opening sequence and target of a record is answered HELD with
that record's ticket, whatever its Code and Body, and counted in DUPLICATES; nothing else changes. -/
def Obligations.DuplicateAnsweredWithTicket : Prop :=
  ∀ (s : State) (source target seq code : Octet) (body : List Octet) (d : Fin 64) (e : DirEntry)
    (i : SlotId) (r : Record),
    TrunkReady s → stationAddress source = true → stationAddress target = true →
    bodyFits body = true → target ≠ s.ownAddress → Represents s target d e →
    NoTwinRecords s → s.record i = some r → Repeats r source seq target →
    exec (.admission source target seq code body) s =
      .next ((answering s
        (ownAnswer s source seq .held (ticketOf (s.issue i) i) [])).countTrunk .duplicates)

/-- R30, R31, R57 to R60, R67 to R72: code and class, access, shape and register translation, in this
order, and the outbound request of a LEAF and of a RELAY. -/
def Obligations.RequestTranslation : Prop :=
  ∀ (k : Bank) (e : DirEntry) (t : Telegram),
    let p := k.profiles.get e.profile
    let code := (p.ops.get (Fin.ofNat 32 t.code.toNat)).code
    ((∀ c, ¬ HasClass p e.kind t.code c) → requestOutbound k e t = .error .unsupported) ∧
    ∀ c, HasClass p e.kind t.code c →
      (Denies e.access c → requestOutbound k e t = .error .denied) ∧
      (¬ Denies e.access c →
        (¬ ShapeFits c t.body → requestOutbound k e t = .error .range) ∧
        (ShapeFits c t.body →
          (e.kind = .relay →
            requestOutbound k e t = .ok { dest := t.dest, code := t.code, body := t.body }) ∧
          (e.kind = .leaf → c = .control →
            requestOutbound k e t = .ok { dest := e.node, code := code, body := t.body }) ∧
          (e.kind = .leaf → c ≠ .control → (registerSum p t.body < 0 ∨ 65535 < registerSum p t.body) →
            requestOutbound k e t = .error .range) ∧
          (e.kind = .leaf → c ≠ .control → 0 ≤ registerSum p t.body → registerSum p t.body ≤ 65535 →
            requestOutbound k e t = .ok
              { dest := e.node, code := code,
                body := wordOctets (BitVec.ofInt 16 (registerSum p t.body)) ++ t.body.drop 2 })))

/-- R45: a COLLECT that matches no record is answered NO_TICKET, and one that matches an active record
WAIT with the quoted ticket; neither changes a record or a counter. -/
def Obligations.CollectUnmatchedOrActive : Prop :=
  ∀ (s : State) (source seq ticket opening : Octet), ManagementReady s →
    stationAddress source = true →
    ((∀ i r, ¬ Quotes s ticket source opening i r) →
      exec (.collect source seq ticket opening) s =
        .next (answering s (ownAnswer s source seq .fault 0x06 []))) ∧
    ∀ i r, Quotes s ticket source opening i r → r.isActive = true →
      exec (.collect source seq ticket opening) s =
        .next (answering s (ownAnswer s source seq .wait ticket []))

/-- R46, R26: the first COLLECT of a DONE record carries its result and makes it DELIVERED, with the
next delivery stamp and the linger timer started, and ATTN follows; a repeated one carries the same
result and leaves the record as it is; each is counted in COLLECTS. -/
def Obligations.CollectDeliversResult : Prop :=
  ∀ (s : State) (source seq ticket opening : Octet) (i : SlotId) (r : Record) (result : Result),
    ManagementReady s → stationAddress source = true → Quotes s ticket source opening i r →
    let answer : Telegram :=
      match result with
      | .ans body => ownAnswer s source seq .ans r.headCode body
      | .fault reason detail => ownAnswer s source seq .fault reason detail.toList
    (∀ hold, r.phase = .done result hold →
      exec (.collect source seq ticket opening) s = .next
        { s with
          answer := .turnaround answer 2
          slots :=
            s.slots.set i
              { issue := s.issue i
                record :=
                  some { r with phase := .delivered result s.lingerTime s.nextDelivery } }
          nextDelivery := s.nextDelivery + 1
          attn :=
            s.attn && (List.finRange 16).any fun j => j != i && (s.record j).any Record.isDone
          trunkCounters := (s.countTrunk .collects).trunkCounters }) ∧
    (∀ linger stamp, r.phase = .delivered result linger stamp →
      exec (.collect source seq ticket opening) s =
        .next ((answering s answer).countTrunk .collects))

/-- R125, R133: a broadcast is offered to each branch, which drops and counts it, stores it, or, from
IDLE, takes it at once with a new sequence. Nothing is answered or counted on the trunk. -/
def Obligations.BroadcastOfferedToEveryBranch : Prop :=
  ∀ (s : State) (source seq code : Octet) (body : List Octet), TrunkReady s →
    s.ownAddress ≠ 0 → stationAddress source = true → bodyFits body = true → code.toNat ≤ 0x1F →
    ∃ t, exec (.broadcastRelay source seq code body) s = .next t ∧
      (∀ b : Branch,
        let ln := s.line b
        let f := s.framer (lineOf b)
        let held : Broadcast := { code := code, body := body }
        let next := ln.seq + 1
        let octets := telegramOctets
          { dest := 0, source := s.ownAddress, kind := .req, seq := next, code := code, body := body }
        (ln.state.isDown = true ∨ ln.broadcast ≠ none →
          t.line b = ln ∧ t.framer (lineOf b) = f ∧
          t.driverEnable.get (lineOf b) = s.driverEnable.get (lineOf b) ∧
          t.branchCounters.get b = (s.countBranch b .bcastDropped).branchCounters.get b) ∧
        (ln.state.isDown = false → ln.broadcast = none → ln.state ≠ .idle →
          t.line b = { ln with broadcast := some held } ∧ t.framer (lineOf b) = f ∧
          t.driverEnable.get (lineOf b) = s.driverEnable.get (lineOf b) ∧
          t.branchCounters.get b = s.branchCounters.get b) ∧
        (ln.state = .idle → ln.broadcast = none →
          t.line b = { ln with seq := next, state := .sending (.broadcast next) } ∧
          t.framer (lineOf b) = { f with mode := .transmitting octets octets } ∧
          t.driverEnable.get (lineOf b) = true ∧
          t.branchCounters.get b =
            (if f.mode.inProgress then s.countBranch b .rxTorn else s).branchCounters.get b)) ∧
      t.framer 0 = s.framer 0 ∧ t.driverEnable.get 0 = s.driverEnable.get 0 ∧
      t = { s with
            framers := t.framers, driverEnable := t.driverEnable, lines := t.lines,
            branchCounters := t.branchCounters }

/-! ### Management operations -/

/-- R146 to R150: a code that is no operation is refused with UNSUPPORTED, whatever the Body. Each
operation makes its checks of the Body in order, and the first that fails is refused with BAD_ARGUMENT,
its detail 255 for the length or the offset of the field; a Body that passes them all is never refused
so. The answer is ANS, which no counter counts, or FAULT, and a refused operation changes nothing but
the answer and REFUSED. -/
def Obligations.RefusedOperationsChangeNothing : Prop :=
  ∀ (s : State) (source seq code : Octet) (body : List Octet), ManagementReady s →
    stationAddress source = true → bodyFits body = true →
    (code.toNat < 0x80 ∨ 0x8D < code.toNat →
      exec (.unsupported source seq code body) s = .next (refusedOwn s source seq 0x01 [])) ∧
    ∀ op ∈ operations source seq body,
      (∀ detail, bodyRefusal op.1 body = some detail →
        exec op.2 s = .next (refusedOwn s source seq 0x12 [detail])) ∧
      (bodyRefusal op.1 body = none → ∃ t a, exec op.2 s = .next t ∧ t.answer = .turnaround a 2 ∧
        a.dest = source ∧ a.source = s.ownAddress ∧ a.seq = seq ∧
        ((a.kind = .ans ∧ a.code = op.1 ∧
            (op.1 ≠ 0x8C → t.trunkCount .refused = s.trunkCount .refused)) ∨
          (a.kind = .fault ∧ a.code ≠ 0x12 ∧ t = refusedOwn s source seq a.code a.body)))

/-- R82 to R85, R152, R153: with the other bank STAGED, WRITE_SLOT, CLEAR_SLOT and WRITE_PROFILE each
set the one item they name in that bank; in DRAINING and RESEEDING they are refused with NO_STAGE and
the role code. -/
def Obligations.StagedWritesSetOneItem : Prop :=
  ∀ (s : State) (source seq : Octet), ManagementReady s → stationAddress source = true →
    let bank := s.otherBank
    let wrote (code : Octet) (k : Bank) : State :=
      (answering s (ownAnswer s source seq .ans code [])).setBank s.live.other k
    let outcome (code : Octet) (k : Bank) : State :=
      match s.otherRole with
      | .staged => wrote code k
      | .draining => refusedOwn s source seq 0x11 [1]
      | .reseeding => refusedOwn s source seq 0x11 [2]
    (∀ (i : Fin 64) (e : DirEntry), entryInRange e = true →
      exec (.writeSlot source seq
        [octetOf i.val, e.logical, branchNumber e.branch, e.kind.code, e.node,
          octetOf e.profile.val, e.access.code, octetOf e.budget.val]) s =
        .next (outcome 0x82 { bank with directory := bank.directory.set i (some e) })) ∧
    (∀ i : Fin 64, exec (.clearSlot source seq [octetOf i.val]) s =
      .next (outcome 0x83 { bank with directory := bank.directory.set i none })) ∧
    (∀ (p : Fin 8) (n : Fin 32) (e : OpEntry),
      exec (.writeProfile source seq [octetOf p.val, octetOf n.val, e.code, e.cls.code]) s =
        .next (outcome 0x85 { bank with
          profiles := bank.profiles.set p
            { bank.profiles.get p with ops := (bank.profiles.get p).ops.set n e } })) ∧
    (∀ (p : Fin 8) (w : Word),
      exec (.writeProfile source seq (octetOf p.val :: 32 :: wordOctets w)) s =
        .next (outcome 0x85 { bank with
          profiles := bank.profiles.set p { bank.profiles.get p with offset := w } })) ∧
    (∀ (p : Fin 8) (r : Fin 16) (detail : Octet),
      exec (.writeProfile source seq [octetOf p.val, octetOf (33 + r.val), detail]) s =
        .next (outcome 0x85 { bank with
          profiles := bank.profiles.set p
            { bank.profiles.get p with faults := (bank.profiles.get p).faults.set r detail } }))

/-- R53, R77, R86: READ_SLOT and READ_PROFILE report the item of the bank selected, the other bank in
STAGED and DRAINING and refused with NO_STAGE in RESEEDING, and change nothing. -/
def Obligations.TablesReadFromSelectedBank : Prop :=
  ∀ (s : State) (source seq selector : Octet), ManagementReady s → stationAddress source = true →
    selector = 0 ∨ selector = 1 →
    let k := if selector = 0 then s.liveBank else s.otherBank
    let outcome (code : Octet) (report : List Octet) : State :=
      if selector = 1 ∧ s.otherRole = .reseeding then refusedOwn s source seq 0x11 [2]
      else answering s (ownAnswer s source seq .ans code report)
    (∀ i : Fin 64, exec (.readSlot source seq [selector, octetOf i.val]) s =
      .next (outcome 0x81
        (match k.directory.get i with
         | none => [0, 0, 0, 0, 0, 0, 0, 0]
         | some e =>
           [1, e.logical, branchNumber e.branch, e.kind.code, e.node, octetOf e.profile.val,
             e.access.code, octetOf e.budget.val]))) ∧
    ∀ p : Fin 8,
      (∀ n : Fin 32, exec (.readProfile source seq [selector, octetOf p.val, octetOf n.val]) s =
        .next (outcome 0x84
          [((k.profiles.get p).ops.get n).code, ((k.profiles.get p).ops.get n).cls.code])) ∧
      exec (.readProfile source seq [selector, octetOf p.val, 32]) s =
        .next (outcome 0x84 (wordOctets (k.profiles.get p).offset)) ∧
      ∀ r : Fin 16, exec (.readProfile source seq [selector, octetOf p.val, octetOf (33 + r.val)]) s =
        .next (outcome 0x84 [(k.profiles.get p).faults.get r])

/-- R101, R142, R151, R155, R157: IDENTIFY, READ_LINE and READ_RECORDS report the state as it stands
and change nothing but the answer. -/
def Obligations.ReportsShowTheState : Prop :=
  ∀ (s : State) (source seq : Octet), ManagementReady s → stationAddress source = true →
    exec (.identify source seq []) s = .next (answering s (ownAnswer s source seq .ans 0x80
      [0xAD, 0x41, 0x04, 1, s.ownAddress, octetOf (s.framer 0).rate.val, s.live.code, s.generation,
        s.otherRole.code, octetOf s.drainCount])) ∧
    exec (.readLine source seq [0]) s = .next (answering s (ownAnswer s source seq .ans 0x88
      (wordOctets s.holdTime ++ wordOctets s.lingerTime ++
        [octetOf (s.framer 0).rate.val, s.ownAddress, boolCode s.attn]))) ∧
    (∀ b : Branch, exec (.readLine source seq [branchNumber b]) s =
      .next (answering s (ownAnswer s source seq .ans 0x88
        (settingsOctets (s.line b).settings ++
          [(s.line b).state.code, octetOf (s.activeCount b), octetOf (s.line b).queue.length,
            boolCode (s.line b).broadcast.isSome, octetOf (s.line b).errors])))) ∧
    ∃ body : List Octet,
      exec (.readRecords source seq []) s =
        .next (answering s (ownAnswer s source seq .ans 0x8A body)) ∧
      body.length = 32 ∧
      ∀ i : SlotId, body[2 * i.val]? = some (slotCode (s.record i)) ∧
        body[2 * i.val + 1]? = some (ticketOf (s.issue i) i)

/-- R87, R88: the checks of COMMIT in their order, each with its reason and detail; a refused COMMIT
changes no role, bank, generation or drain count. -/
def Obligations.CommitChecksInOrder : Prop :=
  ∀ (s : State) (source seq : Octet) (body : List Octet), ManagementReady s →
    stationAddress source = true → bodyFits body = true →
    (body.length ≠ 1 → exec (.commit source seq body) s =
      .next (refusedOwn s source seq 0x12 [255])) ∧
    ∀ expected, body = [expected] →
      (s.otherRole = .draining → exec (.commit source seq body) s =
        .next (refusedOwn s source seq 0x10 [1])) ∧
      (s.otherRole = .reseeding → exec (.commit source seq body) s =
        .next (refusedOwn s source seq 0x10 [2])) ∧
      (s.otherRole = .staged → expected ≠ s.generation → exec (.commit source seq body) s =
        .next (refusedOwn s source seq 0x15 [s.generation])) ∧
      (s.otherRole = .staged → expected = s.generation →
        (∀ i, SharesAddress s.otherBank i → (∀ j, j < i → ¬ SharesAddress s.otherBank j) →
          exec (.commit source seq body) s =
            .next (refusedOwn s source seq 0x13 [octetOf i.val])) ∧
        ((∀ i, ¬ SharesAddress s.otherBank i) →
          ∀ i, HoldsAddress s.otherBank i s.ownAddress →
            (∀ j, j < i → ¬ HoldsAddress s.otherBank j s.ownAddress) →
            exec (.commit source seq body) s =
              .next (refusedOwn s source seq 0x14 [octetOf i.val])))

/-- R80, R89: an accepted COMMIT makes the STAGED bank LIVE and advances the generation; the old LIVE
bank drains the active records that refer to it, or is re-seeded at once where there is none. -/
def Obligations.CommitPromotesStagedBank : Prop :=
  ∀ (s : State) (source seq : Octet), ManagementReady s → stationAddress source = true →
    s.otherRole = .staged → (∀ i, ¬ SharesAddress s.otherBank i) →
    (∀ i, ¬ HoldsAddress s.otherBank i s.ownAddress) →
    exec (.commit source seq [s.generation]) s = .next
      { answering s (ownAnswer s source seq .ans 0x86 [s.generation + 1]) with
        live := s.live.other
        generation := s.generation + 1
        drainCount := s.activeIn s.live
        otherRole := if s.activeIn s.live = 0 then .reseeding else .draining }

/-- R44, R91, R92: RETIRE in DRAINING completes every active record of the DRAINING bank with REVOKED and
answers their number. The revoked records leave their queues or leave their attempts as orphans, ATTN is
asserted, the drain count is 0 and the re-seed starts; no other record, neither bank and not the
generation is affected. Then the four controllers look for a claimant (R105), so that a record QUEUED
under the LIVE bank may be taken; that they look after the last completion is the model's reading (log
entry 7). In another role RETIRE answers 0 and changes nothing. -/
def Obligations.RetireRevokesDrainingRecords : Prop :=
  ∀ (s : State) (source seq : Octet), ManagementReady s → stationAddress source = true →
    (s.otherRole ≠ .draining → exec (.retire source seq []) s =
      .next (answering s (ownAnswer s source seq .ans 0x87 [0]))) ∧
    (s.otherRole = .draining → DrainCounted s → QueueHoldsQueued s → OnLineIsAttempt s →
      ∃ u t, exec (.retire source seq []) s = .next t ∧
        t = answering ((List.finRange 4).foldl State.look u)
          (ownAnswer s source seq .ans 0x87 [octetOf s.drainCount]) ∧
        u = { s with
              slots := u.slots, lines := u.lines, attn := true, otherRole := .reseeding,
              drainCount := 0 } ∧
        (∀ i, u.issue i = s.issue i ∧ (s.record i = none → u.record i = none) ∧
          ∀ r, s.record i = some r →
            (r.isActive = true → r.bank ≠ s.live →
              u.record i =
                some { r with branchSeq := none, phase := .done (.fault 0x0F none) s.holdTime }) ∧
            (r.isActive = false ∨ r.bank = s.live → u.record i = some r)) ∧
        (∀ b : Branch, u.line b =
          { s.line b with
            queue := (s.line b).queue.filter fun i => !revokes s i
            state :=
              match (s.line b).state with
              | .sending (.exchange x) => .sending (.exchange (revokedAttempt s x))
              | .listening x w => .listening (revokedAttempt s x) w
              | st => st }) ∧
        t.live = s.live ∧ t.generation = s.generation ∧ t.bankA = s.bankA ∧ t.bankB = s.bankB ∧
        t.trunkCounters = s.trunkCounters ∧ t.otherRole = .reseeding ∧ t.drainCount = 0 ∧
        t.attn = true ∧
        ∀ i, t.issue i = s.issue i ∧ (t.record i = u.record i ∨
          ∃ r lifetime, s.record i = some r ∧ r.bank = s.live ∧
            r.phase = .active .queued lifetime ∧
            t.record i = some
              { r with
                phase := .active .onLine lifetime
                branchSeq := some (r.branchSeq.getD ((s.line r.branch).seq + 1)) }))

/-- R99, R100, R123, R124, R141, R156: WRITE_LINE takes all the settings of its line together. On a
branch a rate other than the one in use becomes pending; enable off takes the line to OFF, and enable
on brings a line in OFF or FAULTED to IDLE with its error count 0. -/
def Obligations.WriteLineTakesSettings : Prop :=
  ∀ (s : State) (source seq : Octet), ManagementReady s → stationAddress source = true →
    (∀ hold linger : Word, within 100 60000 hold.toNat = true → within 100 10000 linger.toNat = true →
      exec (.writeLine source seq (0 :: (wordOctets hold ++ wordOctets linger))) s =
        .next { answering s (ownAnswer s source seq .ans 0x89 []) with
          holdTime := hold, lingerTime := linger }) ∧
    ∀ (b : Branch) (c : Settings), settingsInRange c = true →
      let rate := (s.framer (lineOf b)).rate
      let ln : BranchLine :=
        { s.line b with
          settings := c, pendingRate := if c.rate = rate then none else some c.rate }
      let done (t : State) : State := answering t (ownAnswer s source seq .ans 0x89 [])
      let run := exec (.writeLine source seq (branchNumber b :: settingsOctets c)) s
      (c.enable = true → (s.line b).state.isDown = false → run = .next (done (s.setLine b ln))) ∧
      (c.enable = true → (s.line b).state.isDown = true →
        run = .next (done ((s.setLine b { ln with errors := 0 }).enterIdle b))) ∧
      (c.enable = false → (s.line b).state = .off → run = .next (done (s.setLine b ln))) ∧
      (c.enable = false → (s.line b).state ≠ .off →
        run = .next (done ((s.setLine b ln).lineDown b .off)))

/-- R42, R158: CANCEL of an active record completes it with CANCELLED and answers status 0; of a DONE or
DELIVERED record answers status 1 and changes nothing; one that matches no record is refused with
NO_TICKET. -/
def Obligations.CancelCompletesActiveRecord : Prop :=
  ∀ (s : State) (source seq ticket opening : Octet), ManagementReady s →
    stationAddress source = true →
    ((∀ i r, ¬ Quotes s ticket source opening i r) →
      exec (.cancel source seq [ticket, opening]) s = .next (refusedOwn s source seq 0x06 [])) ∧
    ∀ i r, Quotes s ticket source opening i r →
      (r.isActive = false → exec (.cancel source seq [ticket, opening]) s =
        .next (answering s (ownAnswer s source seq .ans 0x8B [1]))) ∧
      (r.isActive = true → exec (.cancel source seq [ticket, opening]) s =
        .next (answering
          (if waitedOffLine r then (s.complete i (.fault 0x0D none)).look r.branch
            else s.complete i (.fault 0x0D none))
          (ownAnswer s source seq .ans 0x8B [0])))

/-- R159, R167: READ_COUNTERS reports every counter of its line in the order of R159, and with clear
flag 1 sets those and no others to 0; an increment raises its one counter and stops at 65535. -/
def Obligations.CountersReadClearedSaturating : Prop :=
  (∀ (s : State) (source seq : Octet), ManagementReady s → stationAddress source = true →
    (∀ clear : Bool, exec (.readCounters source seq [0, boolCode clear]) s = .next
      { answering s (ownAnswer s source seq .ans 0x8C
          (([.rxCheck, .rxTorn, .rxMalformed, .ignored, .admitted, .duplicates, .refused, .overrun,
            .unclaimed, .collects] : List TrunkCounter).flatMap
              fun c => wordOctets (s.trunkCount c))) with
        trunkCounters := if clear then Vector.replicate 10 0 else s.trunkCounters }) ∧
    ∀ (b : Branch) (clear : Bool),
      exec (.readCounters source seq [branchNumber b, boolCode clear]) s = .next
        { answering s (ownAnswer s source seq .ans 0x8C
            (([.sent, .noAnswer, .badAnswer, .lineErrors, .strays, .rxCheck, .rxTorn, .rxMalformed,
              .orphans, .bcastSent, .bcastDropped] : List BranchCounter).flatMap
                fun c => wordOctets (s.branchCount b c))) with
          branchCounters :=
            if clear then s.branchCounters.set b (Vector.replicate 11 0) else s.branchCounters }) ∧
  (∀ (s : State) (c d : TrunkCounter), ((s.countTrunk c).trunkCount d).toNat =
    if d = c then min (s.trunkCount d).toNat.succ 65535 else (s.trunkCount d).toNat) ∧
  ∀ (s : State) (b b' : Branch) (c d : BranchCounter),
    ((s.countBranch b c).branchCount b' d).toNat =
      if b' = b ∧ d = c then min (s.branchCount b' d).toNat.succ 65535
      else (s.branchCount b' d).toNat

/-! ### The answer's transmission and the management restart -/

/-- R15, R137, R138, R187: at the turnaround expiry the buffer enters SENDING, DE0 is driven and the
trunk framer transmits the answer; a telegram in progress in the receiver is counted in RX_TORN. With
no answer in TURNAROUND the timer is stopped (log entry 3). While the framer transmits, the trunk hears nothing
(R17). -/
def Obligations.TurnaroundExpirySendsAnswer : Prop :=
  (∀ (s : State) (a : Telegram) (n : Nat), s.inReset = false → s.answer = .turnaround a n →
    exec .turnaroundExpiry s = .next
      { s with
        answer := .sending a
        framers :=
          s.framers.set 0 { s.framer 0 with mode := .transmitting (telegramOctets a) [] }
        driverEnable := s.driverEnable.set 0 true
        trunkCounters :=
          if (s.framer 0).mode.inProgress then (s.countTrunk .rxTorn).trunkCounters
          else s.trunkCounters }) ∧
  (∀ s : State, (∀ a n, s.answer ≠ .turnaround a n) → exec .turnaroundExpiry s = .next s) ∧
  ∀ (s : State) (o : Octet) (stop : Bool) (t : Telegram),
    (s.framer 0).mode.isTransmitting = true →
    exec (.octetReceived 0 o stop) s = .next s ∧ exec (.ignored t) s = .next s

/-- R161, R162: RESTART is answered and left pending; at the transmit completion of an answer the
buffer becomes EMPTY and DE0 is released, and a pending restart then takes effect in every block. With
no answer in SENDING there is no such event (log entry 3). -/
def Obligations.RestartFollowsItsAnswer : Prop :=
  (∀ (s : State) (source seq : Octet), ManagementReady s → stationAddress source = true →
    exec (.restart source seq []) s = .next
      { answering s (ownAnswer s source seq .ans 0x8D []) with pendingRestart := true }) ∧
  (∀ s : State, (∀ a, s.answer ≠ .sending a) → exec .trunkTransmitCompletion s = .next s) ∧
  ∀ (s : State) (a : Telegram), s.inReset = false → s.answer = .sending a →
    (s.framer 0).mode.isTransmitting = true →
    (s.pendingRestart = false → exec .trunkTransmitCompletion s = .next
      { s with
        answer := .empty
        framers := s.framers.set 0 { s.framer 0 with mode := .hunt }
        driverEnable := s.driverEnable.set 0 false }) ∧
    (s.pendingRestart = true → ∃ t, exec .trunkTransmitCompletion s = .next t ∧
      t.pendingRestart = false ∧ t.answer = .empty ∧ t.attn = false ∧
      (∀ l : Line, t.framer l = { s.framer l with mode := .hunt } ∧
        t.driverEnable.get l = false) ∧
      (∀ i : SlotId, t.record i = none ∧ t.issue i = s.issue i) ∧
      t.drainCount = 0 ∧ t.otherRole = .staged ∧ t.liveBank = s.liveBank ∧
      t.otherBank = (if s.otherRole = .staged then s.otherBank else s.liveBank) ∧
      (∀ b : Branch, t.line b =
        { s.line b with
          state := if (s.line b).state = .off then .off else .idle
          queue := [], broadcast := none, errors := 0 }) ∧
      (∀ c : TrunkCounter, t.trunkCount c = 0) ∧
      (∀ (b : Branch) (c : BranchCounter), t.branchCount b c = 0) ∧
      t = { s with
            pendingRestart := false, answer := .empty, attn := false, framers := t.framers,
            driverEnable := t.driverEnable, slots := t.slots, bankA := t.bankA, bankB := t.bankB,
            otherRole := .staged, drainCount := 0, lines := t.lines,
            trunkCounters := t.trunkCounters, branchCounters := t.branchCounters })

/-! ### The branch lines -/

/-- R104 to R108: on an IDLE line the buffered broadcast is taken, else the first queued record that may
be: one with action COLLECT, or an ASK that no earlier ASK of the same target and branch, in QUEUED or
BACKOFF, holds back. An ASK held back is passed over. A first transmission of an action draws the next sequence and a
retransmission keeps its own; the line enters SENDING and the telegram goes to the framer. Otherwise
nothing is taken. -/
def Obligations.ControllerTakesClaimant : Prop :=
  ∀ (s : State) (b : Branch),
    let ln := s.line b
    ((s.line b).state ≠ .idle → s.look b = s) ∧
    (∀ bc, ln.state = .idle → ln.broadcast = some bc →
      s.look b =
        (s.setLine b
          { ln with
            broadcast := none, seq := ln.seq + 1,
            state := .sending (.broadcast (ln.seq + 1)) }).transmit (lineOf b)
          { dest := 0, source := s.ownAddress, kind := .req, seq := ln.seq + 1, code := bc.code,
            body := bc.body }) ∧
    (ln.state = .idle → ln.broadcast = none → (∀ i ∈ ln.queue, ¬ Eligible s i) →
      s.look b = s) ∧
    ∀ (before after : List SlotId) (i : SlotId) (r : Record) (lifetime : Word),
      ln.state = .idle → ln.broadcast = none → ln.queue = before ++ i :: after → i ∉ before →
      (∀ j ∈ before, ¬ Eligible s j) → s.record i = some r →
      r.phase = .active .queued lifetime →
      let seq := r.branchSeq.getD (ln.seq + 1)
      let taken (sought : Sought) (t : Telegram) : State :=
        ((s.setRecord i (some { r with phase := .active .onLine lifetime, branchSeq := some seq })).setLine
          b { ln with
              queue := before ++ after
              seq := if r.branchSeq = none then ln.seq + 1 else ln.seq
              state :=
                .sending (.exchange { record := some i, seq := seq, sought := sought }) }).transmit
          (lineOf b) t
      (r.action = .ask → ¬ HeldBack s r →
        s.look b = taken (.ask r.kind r.outbound.dest)
          { dest := r.outbound.dest, source := s.ownAddress, kind := .req, seq := seq,
            code := r.outbound.code, body := r.outbound.body }) ∧
      ∀ link, r.action = .collect link →
        s.look b = taken (.collect r.kind link.address link.ticket)
          { dest := link.address, source := s.ownAddress, kind := .collect, seq := seq,
            code := link.ticket, body := [link.opening] }

/-- R109, R111: at the transmit completion of a record or an orphan SENT is counted and the line
listens with the answer window started; of a broadcast BCAST_SENT is counted and the line settles; the
count of consecutive line errors is 0. A line that is not SENDING has no such event (log entry 3), and
on one whose echoes are still expected the command stands for their all having matched (log entry 17),
both the model's choices. -/
def Obligations.TransmitCompletionListensOrSettles : Prop :=
  (∀ (s : State) (b : Branch), (∀ a, (s.line b).state ≠ .sending a) →
    exec (.branchTransmitCompletion b) s = .next s) ∧
  ∀ (s : State) (b : Branch) (a : Attempt), Sends s b a →
    let ended (st : LineState) (c : BranchCounter) : State :=
      ((cut s b).setLine b { s.line b with errors := 0, state := st }).countBranch b c
    (∀ x, a = .exchange x → exec (.branchTransmitCompletion b) s =
      .next (ended (.listening x (s.line b).settings.window) .sent)) ∧
    (∀ seq, a = .broadcast seq → exec (.branchTransmitCompletion b) s =
      .next (ended (.settling 4) .bcastSent))

/-- R110, R122: an echo mismatch of any sort cuts the transmission and counts LINE_ERRORS; below eight
in a row the line settles, and the attempt's record has the failure LINE_ERROR, an orphan nothing, and
a broadcast is dropped; at the eighth the line goes down to FAULTED. A line that is not SENDING has no
such event (log entry 3). -/
def Obligations.EchoMismatchFailsOrFaults : Prop :=
  (∀ (s : State) (b : Branch) (cause : EchoFault), (∀ a, (s.line b).state ≠ .sending a) →
    exec (.echoMismatch b cause) s = .next s) ∧
  ∀ (s : State) (b : Branch) (a : Attempt) (cause : EchoFault), Sends s b a →
    let counted (st : LineState) : State :=
      ((cut s b).setLine b
        { s.line b with errors := (s.line b).errors + 1, state := st }).countBranch b .lineErrors
    ((s.line b).errors < 7 →
      (∀ x i, a = .exchange x → x.record = some i → exec (.echoMismatch b cause) s =
        .next ((counted (.settling 4)).reportFailure i .lineError)) ∧
      (∀ x, a = .exchange x → x.record = none → exec (.echoMismatch b cause) s =
        .next (counted (.settling 4))) ∧
      (∀ seq, a = .broadcast seq → exec (.echoMismatch b cause) s =
        .next ((counted (.settling 4)).countBranch b .bcastDropped))) ∧
    ((s.line b).errors = 7 → exec (.echoMismatch b cause) s =
      .next ((counted (.sending a)).lineDown b .faulted))

/-- R111, R120: at the expiry of the answer window NO_ANSWER is counted and the line settles; the
failure goes to the attempt's record, and to none for an orphan. A window that is stopped does not
expire. (log entry 3). -/
def Obligations.WindowExpiryEndsListening : Prop :=
  ∀ (s : State) (b : Branch), s.inReset = false →
    (∀ (x : Exchange) (w : Word), (s.line b).state = .listening x w →
      let u := (s.countBranch b .noAnswer).setLineState b (.settling 4)
      (∀ i, x.record = some i →
        exec (.answerWindowExpiry b) s = .next (u.reportFailure i .noAnswer)) ∧
      (x.record = none → exec (.answerWindowExpiry b) s = .next u)) ∧
    ((∀ x w, (s.line b).state ≠ .listening x w) → exec (.answerWindowExpiry b) s = .next s)

/-- R112: the table of answers, by action, kind, source and kind of telegram. -/
def Obligations.AnswersJudgedByTheTable : Prop :=
  ∀ (x : Exchange) (own : Octet) (t : Telegram),
    (¬ (t.dest = own ∧ t.seq = x.seq) → x.judge own t = .stray) ∧
    (t.dest = own → t.seq = x.seq →
      (∀ source, x.sought = .ask .leaf source →
        (t.source ≠ source → x.judge own t = .stray) ∧
        (t.source = source →
          x.judge own t = if t.kind = .ans ∨ t.kind = .fault then .accept else .bad)) ∧
      (∀ source, x.sought = .ask .relay source →
        (t.source ≠ source → x.judge own t = if t.kind = .held then .accept else .stray) ∧
        (t.source = source → x.judge own t =
          if t.kind = .ans ∨ t.kind = .fault ∨ t.kind = .held then .accept else .bad)) ∧
      (∀ kind source ticket, x.sought = .collect kind source ticket →
        (t.source ≠ source → x.judge own t = .stray) ∧
        (t.source = source → x.judge own t =
          if t.kind = .ans ∨ t.kind = .fault ∨ (t.kind = .wait ∧ t.code = ticket) then .accept
          else .bad)))

/-- R36, R73, R74, R114: an accepted ANS or FAULT completes the ON_LINE record with the result of R36,
and the line settles. -/
def Obligations.AcceptedAnswerCompletesRecord : Prop :=
  ∀ (s : State) (b : Branch) (x : Exchange) (w : Word) (t : Telegram) (i : SlotId) (r : Record),
    Hears s b t → (s.line b).state = .listening x w → x.judge s.ownAddress t = .accept →
    x.record = some i → s.record i = some r → r.activeState = some .onLine →
    let completed (result : Result) : State := (s.setLineState b (.settling 4)).complete i result
    let run := exec (.branchTelegram b t) s
    (t.kind = .ans → run = .next (completed (.ans t.body))) ∧
    (t.kind = .fault → r.kind = .leaf → 16 ≤ t.code.toNat →
      run = .next (completed (.fault 0x08 (some t.code)))) ∧
    (t.kind = .fault → r.kind = .leaf → ∀ (reason : Fin 16) (e : DirEntry),
      t.code.toNat = reason.val → (s.bank r.bank).directory.get r.dirSlot = some e →
      run = .next (completed (.fault 0x08
        (some (((s.bank r.bank).profiles.get e.profile).faults.get reason))))) ∧
    (t.kind = .fault → r.kind = .relay →
      ((∃ link, r.action = .collect link) → t.code = 0x06 →
        run = .next (completed (.fault 0x0E none))) ∧
      (r.action = .ask ∨ t.code ≠ 0x06 → run = .next (completed (.fault t.code t.body.head?))))

/-- R37: an accepted HELD or WAIT defers the ON_LINE record, its wait timer started with the collect
interval of its branch and its branch sequence cleared; a HELD leaves the collect address, the
downstream ticket and the downstream opening sequence; retries left and the lifetime stand. -/
def Obligations.HeldAndWaitDeferRecord : Prop :=
  ∀ (s : State) (b : Branch) (x : Exchange) (w : Word) (t : Telegram) (i : SlotId) (r : Record)
    (seq : Octet) (lifetime : Word),
    Hears s b t → (s.line b).state = .listening x w → x.judge s.ownAddress t = .accept →
    x.record = some i → s.record i = some r → r.phase = .active .onLine lifetime → r.branch = b →
    r.branchSeq = some seq →
    let deferred (action : Action) : State :=
      (s.setLineState b (.settling 4)).setRecord i (some
        { r with
          action := action, branchSeq := none,
          phase := .active (.deferred (s.line b).settings.interval) lifetime })
    (t.kind = .held → exec (.branchTelegram b t) s =
      .next (deferred (.collect { address := t.source, ticket := t.code, opening := seq }))) ∧
    (t.kind = .wait → exec (.branchTelegram b t) s = .next (deferred r.action))

/-- R112, R114, R116, R120: a rejected answer is counted BAD_ANSWER and is a failure of its record; an
answer that would be accepted or rejected for an orphan is counted ORPHANS; a stray is counted STRAYS
and changes nothing else. -/
def Obligations.RejectedOrphanedAndStrayTelegrams : Prop :=
  ∀ (s : State) (b : Branch) (t : Telegram), Hears s b t →
    (∀ x w, (s.line b).state = .listening x w →
      (∀ i, x.record = some i → x.judge s.ownAddress t = .bad → exec (.branchTelegram b t) s =
        .next (((s.countBranch b .badAnswer).setLineState b (.settling 4)).reportFailure i
          .badAnswer)) ∧
      (x.record = none → x.judge s.ownAddress t ≠ .stray → exec (.branchTelegram b t) s =
        .next ((s.countBranch b .orphans).setLineState b (.settling 4))) ∧
      (x.judge s.ownAddress t = .stray →
        exec (.branchTelegram b t) s = .next (s.countBranch b .strays))) ∧
    ((∀ x w, (s.line b).state ≠ .listening x w) → (∀ a, (s.line b).state ≠ .sending a) →
      exec (.branchTelegram b t) s = .next (s.countBranch b .strays))

/-- R2, R100, R117: at the settle expiry the line enters IDLE; a pending rate is applied, abandoning
uncounted a telegram in progress; and the controller looks for a claimant. Where the settle timer is
stopped nothing happens (log entry 3). -/
def Obligations.SettleExpiryEntersIdle : Prop :=
  ∀ (s : State) (b : Branch), s.inReset = false →
    (∀ n, (s.line b).state = .settling n →
      let f := s.framer (lineOf b)
      let entered : State :=
        match (s.line b).pendingRate with
        | none => s.setLineState b .idle
        | some rate =>
          { s.setLine b { s.line b with state := .idle, pendingRate := none } with
            framers :=
              s.framers.set (lineOf b)
                { rate := rate, mode := if f.mode.inProgress then .hunt else f.mode } }
      exec (.settleExpiry b) s = .next (entered.look b)) ∧
    ((∀ n, (s.line b).state ≠ .settling n) → exec (.settleExpiry b) s = .next s)

/-! ### The records -/

/-- R22, R25, R91: a completing record is DONE with its result, no branch sequence and the hold timer
started; it leaves its
queue, or its attempt becomes an orphan; ATTN is asserted; and a departure from the DRAINING bank lowers
the drain count, at 0 of which the re-seed starts. -/
def Obligations.CompletionEffects : Prop :=
  ∀ (s : State) (i : SlotId) (r : Record) (st : ActiveState) (lifetime : Word) (result : Result),
    s.record i = some r → r.phase = .active st lifetime →
    let t := s.complete i result
    let drains := s.otherRole = .draining ∧ r.bank = s.live.other
    t = { s with
          slots :=
            s.slots.set i
              { issue := s.issue i
                record := some { r with branchSeq := none, phase := .done result s.holdTime } }
          attn := true
          lines := t.lines, drainCount := t.drainCount, otherRole := t.otherRole } ∧
    (∀ b, b ≠ r.branch → t.line b = s.line b) ∧
    (st = .queued →
      t.line r.branch =
        { s.line r.branch with queue := (s.line r.branch).queue.erase i }) ∧
    (st = .onLine →
      (∀ x, x.record = some i → (s.line r.branch).state = .sending (.exchange x) →
        t.line r.branch =
          { s.line r.branch with
            state := .sending (.exchange { x with record := none }) }) ∧
      (∀ x w, x.record = some i → (s.line r.branch).state = .listening x w →
        t.line r.branch =
          { s.line r.branch with state := .listening { x with record := none } w }) ∧
      (LineState.record (s.line r.branch).state ≠ some i → t.lines = s.lines)) ∧
    ((∃ w, st = .backoff w ∨ st = .deferred w) → t.lines = s.lines) ∧
    (drains → t.drainCount = s.drainCount - 1 ∧
      t.otherRole = if s.drainCount ≤ 1 then .reseeding else .draining) ∧
    (¬ drains → t.drainCount = s.drainCount ∧ t.otherRole = s.otherRole)

/-- R38: a failure is stored as the last failure; with retries left one is spent, and the record enters
BACKOFF for the retry delay of its branch or, for a delay of 0, joins the tail of its queue at once;
with none left it completes with TIMEOUT, BAD_ANSWER or LINE_ERROR. -/
def Obligations.FailureRetriesOrCompletes : Prop :=
  ∀ (s : State) (i : SlotId) (r : Record) (lifetime : Word) (f : Failure),
    s.record i = some r → r.phase = .active .onLine lifetime →
    let delay := (s.line r.branch).settings.delay
    let again (st : ActiveState) : State :=
      s.setRecord i (some
        { r with failure := some f, retries := r.retries - 1, phase := .active st lifetime })
    (0 < r.retries → 0 < delay.toNat → s.reportFailure i f = again (.backoff delay)) ∧
    (0 < r.retries → delay = 0 →
      s.reportFailure i f =
        ((again .queued).setLine r.branch
          { s.line r.branch with queue := (s.line r.branch).queue ++ [i] }).look r.branch) ∧
    (r.retries = 0 →
      s.reportFailure i f =
        (s.setRecord i (some { r with failure := some f })).complete i
          (.fault (match f with | .noAnswer => 0x09 | .badAnswer => 0x0A | .lineError => 0x0B) none))

/-- R43, R122, R123: a line that goes to OFF or FAULTED has its transmission cut and its attempt
discarded; a broadcast on the line and one in the buffer are each dropped and counted; every active
record of the branch completes with LINE_OFF, which empties the queue; and no other record or line is
affected. -/
def Obligations.LineGoingDownCompletesRecords : Prop :=
  ∀ (s : State) (b : Branch) (down : LineState), down = .off ∨ down = .faulted →
    QueueHoldsQueued s →
    let t := s.lineDown b down
    let dropped : Nat :=
      (if (s.line b).state.sendsBroadcast then 1 else 0) + (if (s.line b).broadcast.isSome then 1 else 0)
    t.line b = { s.line b with state := down, queue := [], broadcast := none } ∧
    (∀ b', b' ≠ b → t.line b' = s.line b') ∧
    ((s.framer (lineOf b)).mode.isTransmitting = true →
      t.framer (lineOf b) = { s.framer (lineOf b) with mode := .hunt } ∧
      t.driverEnable.get (lineOf b) = false) ∧
    ((s.framer (lineOf b)).mode.isTransmitting = false →
      t.framer (lineOf b) = s.framer (lineOf b) ∧
      t.driverEnable.get (lineOf b) = s.driverEnable.get (lineOf b)) ∧
    (∀ l, l ≠ lineOf b → t.framer l = s.framer l ∧
      t.driverEnable.get l = s.driverEnable.get l) ∧
    (∀ b' c, (t.branchCount b' c).toNat =
      if b' = b ∧ c = .bcastDropped then min ((s.branchCount b' c).toNat + dropped) 65535
      else (s.branchCount b' c).toNat) ∧
    (∀ i, t.issue i = s.issue i ∧ (s.record i = none → t.record i = none) ∧
      ∀ r, s.record i = some r →
        t.record i =
          some (if r.isActive = true ∧ r.branch = b then
            { r with branchSeq := none, phase := .done (.fault 0x04 none) s.holdTime } else r)) ∧
    t.attn = (s.attn || decide (0 < s.activeCount b)) ∧
    t = { s with
          framers := t.framers, driverEnable := t.driverEnable, slots := t.slots, attn := t.attn,
          otherRole := t.otherRole, drainCount := t.drainCount, lines := t.lines,
          branchCounters := t.branchCounters }

/-- R23, R41, R47: the expiries of a record's lifetime, hold and linger timers, each in the states the
timer runs in; in the others it is stopped and nothing happens (log entry 3). -/
def Obligations.RecordTimersExpire : Prop :=
  ∀ (s : State) (i : SlotId), s.inReset = false →
    (s.record i = none → exec (.lifetimeExpiry i) s = .next s ∧ exec (.holdExpiry i) s = .next s ∧
      exec (.lingerExpiry i) s = .next s) ∧
    ∀ r, s.record i = some r →
      (∀ st lifetime, r.phase = .active st lifetime →
        exec (.holdExpiry i) s = .next s ∧ exec (.lingerExpiry i) s = .next s ∧
        let expired := s.complete i (.fault 0x0C (some (match r.failure with
          | none => 0
          | some .noAnswer => 1
          | some .badAnswer => 2
          | some .lineError => 3)))
        ((st = .queued ∨ ∃ w, st = .backoff w) →
          exec (.lifetimeExpiry i) s = .next (expired.look r.branch)) ∧
        ((st = .onLine ∨ ∃ w, st = .deferred w) →
          exec (.lifetimeExpiry i) s = .next expired)) ∧
      (∀ result hold, r.phase = .done result hold →
        exec (.lifetimeExpiry i) s = .next s ∧ exec (.lingerExpiry i) s = .next s ∧
        exec (.holdExpiry i) s = .next
          { s with
            slots := s.slots.set i { issue := s.issue i, record := none }
            trunkCounters := (s.countTrunk .unclaimed).trunkCounters
            attn :=
              s.attn &&
                (List.finRange 16).any fun j => j != i && (s.record j).any Record.isDone }) ∧
      (∀ result linger stamp, r.phase = .delivered result linger stamp →
        exec (.lifetimeExpiry i) s = .next s ∧ exec (.holdExpiry i) s = .next s ∧
        exec (.lingerExpiry i) s =
          .next { s with slots := s.slots.set i { issue := s.issue i, record := none } })

/-- R39, R61: at the expiry of the wait timer a record in BACKOFF rejoins its queue as it is, and one
in DEFERRED with no branch sequence and its retries restored from its captured slot. In the other
states the timer is stopped and nothing happens (log entry 3). -/
def Obligations.WaitExpiryRejoinsQueue : Prop :=
  ∀ (s : State) (i : SlotId), s.inReset = false →
    (∀ (r : Record) (wait lifetime : Word), s.record i = some r →
      let rejoined (q : Record) : State :=
        ((s.setRecord i (some { q with phase := .active .queued lifetime })).setLine r.branch
          { s.line r.branch with queue := (s.line r.branch).queue ++ [i] }).look r.branch
      (r.phase = .active (.backoff wait) lifetime →
        exec (.waitExpiry i) s = .next (rejoined r)) ∧
      (∀ e, r.phase = .active (.deferred wait) lifetime →
        (s.bank r.bank).directory.get r.dirSlot = some e →
        exec (.waitExpiry i) s =
          .next (rejoined { r with branchSeq := none, retries := e.budget.val }))) ∧
    ((∀ r, s.record i = some r → ∀ w, r.activeState ≠ some (.backoff w) ∧
        r.activeState ≠ some (.deferred w)) →
      exec (.waitExpiry i) s = .next s)

/-- R93: the re-seed completion makes the RESEEDING bank STAGED with the LIVE bank's content; in another
role nothing happens (log entry 3). -/
def Obligations.ReseedCopiesLiveBank : Prop :=
  ∀ s : State, s.inReset = false →
    (s.otherRole = .reseeding → ∃ t, exec .reseedCompletion s = .next t ∧
      t.otherRole = .staged ∧ t.otherBank = s.liveBank ∧ t.liveBank = s.liveBank ∧
      t = { s with otherRole := .staged, bankA := t.bankA, bankB := t.bankB }) ∧
    (s.otherRole ≠ .reseeding → exec .reseedCompletion s = .next s)

/-- R20: a ticket is issue × 16 + slot, a quoted ticket names its slot and its issue back, and no two
slots show the same ticket. -/
def Obligations.TicketsNameSlotAndIssue : Prop :=
  (∀ (n : BitVec 4) (i : SlotId), (ticketOf n i).toNat = n.toNat * 16 + i.val ∧
    ticketSlot (ticketOf n i) = i ∧ ticketIssue (ticketOf n i) = n) ∧
  (∀ q : Octet, (ticketSlot q).val = q.toNat % 16 ∧ (ticketIssue q).toNat = q.toNat / 16) ∧
  (∀ (s : State) (i j : SlotId), s.ticket i = s.ticket j → i = j) ∧
  ∀ (s : State) (q source opening : Octet) (i : SlotId) (r : Record),
    s.matchTicket q source opening = some (i, r) ↔ Quotes s q source opening i r

/-! ### Invariants: every step keeps them -/

/-- R26: ATTN is asserted exactly while at least one record is DONE. -/
def Obligations.AttentionStaysWithDone : Prop :=
  ∀ s t : State, AttentionFollowsDone s → step s = .next t → AttentionFollowsDone t

/-- R79, R81, R90: the drain count is the number of active records that refer to the other bank, and it
is above 0 exactly in DRAINING. -/
def Obligations.DrainCountStaysExact : Prop :=
  ∀ s t : State, DrainCounted s → step s = .next t → DrainCounted t

/-- R15, R16, R102, R187: a framer transmits exactly while its owner is SENDING; DE0 is high exactly
while framer 0 transmits, and the DE of a branch only while its framer does, up to the end of the last
stop bit. TXD follows the bits of the telegram while DE is high, each octet as R1 gives it, and is
driven high otherwise. R161: a pending restart keeps its own answer in the answer buffer. -/
def Obligations.DriversFollowTheirOwners : Prop :=
  (∀ s t : State, DriverFollowsFramer s ∧ FramerFollowsOwner s → step s = .next t →
    DriverFollowsFramer t ∧ FramerFollowsOwner t) ∧
  (∀ (s : State) (l : Line),
    (s.driverEnable.get l = false → s.txd l = .high) ∧
    (s.driverEnable.get l = true → ∀ octets echoes,
      (s.framer l).mode = .transmitting octets echoes →
      s.txd l = .follows (octets.flatMap fun o =>
        [false, o.getLsbD 0, o.getLsbD 1, o.getLsbD 2, o.getLsbD 3, o.getLsbD 4, o.getLsbD 5,
          o.getLsbD 6, o.getLsbD 7, true]))) ∧
  ∀ s t : State, RestartHasAnswer s → step s = .next t → RestartHasAnswer t

/-- R24, R103: the queue of a branch holds its QUEUED records, each once. -/
def Obligations.QueuesHoldTheQueued : Prop :=
  ∀ s t : State, QueueHoldsQueued s → step s = .next t → QueueHoldsQueued t

/-- R102: a record is ON_LINE exactly when it is the current attempt of its branch line. R22, R35, R106:
the branch sequence of a record stands exactly while R22 says, a DEFERRED record has action COLLECT, and
the attempt of a record holds that record's branch sequence, action, kind and expected source. -/
def Obligations.OnLineStaysTheAttempt : Prop :=
  (∀ s t : State, QueueHoldsQueued s → OnLineIsAttempt s → step s = .next t → OnLineIsAttempt t) ∧
  ∀ s t : State, QueueHoldsQueued s → OnLineIsAttempt s →
    RecordFieldsPresent s ∧ AttemptHoldsRecord s → step s = .next t →
    RecordFieldsPresent t ∧ AttemptHoldsRecord t

/-- R43, R122, R123: a line in OFF or FAULTED has no active record and no buffered broadcast. -/
def Obligations.DownLinesStayEmpty : Prop :=
  ∀ s t : State, DownLineEmpty s → step s = .next t → DownLineEmpty t

/-- R105: a line never stays IDLE while a claimant exists. -/
def Obligations.IdleLinesHaveNoClaimant : Prop :=
  ∀ s t : State, QueueHoldsQueued s → NoIdleClaimant s → step s = .next t → NoIdleClaimant t

/-- R22, R29: no two records have the same opener, opening sequence and target, no two have the same
admission stamp, and no two DELIVERED records the same delivery stamp; each stamp lies below the next
one given. The numbers are the model's form of the two orders (log entry 8). -/
def Obligations.RecordsStayDistinct : Prop :=
  (∀ s t : State, NoTwinRecords s ∧ StampsOrdered s → step s = .next t →
    NoTwinRecords t ∧ StampsOrdered t) ∧
  ∀ s t : State, DeliveriesOrdered s → step s = .next t → DeliveriesOrdered t

/-- R54, R88: the LIVE directory never holds two valid slots with one logical address, nor the own
address. -/
def Obligations.LiveDirectoryStaysSound : Prop :=
  ∀ s t : State, LiveDirectorySound s → step s = .next t → LiveDirectorySound t

/-- R35, R61, R62, R90: the captured slot of an active record stays valid, with the branch and the kind
that the record copied and a budget that its retries left do not exceed. -/
def Obligations.CapturedSlotStaysValid : Prop :=
  ∀ s t : State, DrainCounted s → CapturedSlotKept s → step s = .next t → CapturedSlotKept t

/-- R51, R98 to R100, R129, R141: directory fields, settings, error counts, pending rates and the own
address stay in their ranges and in step with each other. -/
def Obligations.SettingsStayInRange : Prop :=
  ∀ s t : State,
    DirectoryInRange s ∧ SettingsInRange s ∧ ErrorCountBounded s ∧ PendingRateDiffers s ∧
      OwnAddressFromStraps s →
    step s = .next t →
    DirectoryInRange t ∧ SettingsInRange t ∧ ErrorCountBounded t ∧ PendingRateDiffers t ∧
      OwnAddressFromStraps t

/-- The state after hard reset meets every invariant above. Its straps are all open, own address 63 and
rate code 0, which is the model's choice (log entry 1). -/
def Obligations.ResetMeetsEveryInvariant : Prop :=
  AttentionFollowsDone State.reset ∧ DrainCounted State.reset ∧ DriverFollowsFramer State.reset ∧
  FramerFollowsOwner State.reset ∧ QueueHoldsQueued State.reset ∧ OnLineIsAttempt State.reset ∧
  DownLineEmpty State.reset ∧ NoIdleClaimant State.reset ∧ NoTwinRecords State.reset ∧
  StampsOrdered State.reset ∧ LiveDirectorySound State.reset ∧ CapturedSlotKept State.reset ∧
  DirectoryInRange State.reset ∧ SettingsInRange State.reset ∧ ErrorCountBounded State.reset ∧
  PendingRateDiffers State.reset ∧ OwnAddressFromStraps State.reset ∧
  RestartHasAnswer State.reset ∧ RecordFieldsPresent State.reset ∧
  AttemptHoldsRecord State.reset ∧ DeliveriesOrdered State.reset

/-! ### Rules of the whole part -/

/-- R79, R80, R82: but for hard reset, no command ever changes the content of the bank that was LIVE;
the roles of the banks change places only together with an advance of the generation, from STAGED,
with both contents kept. -/
def Obligations.LiveBankKeptUnlessPromoted : Prop :=
  ∀ (c : Instr) (s t : State), exec c s = .next t →
    (∀ cause, c ≠ .resetAssert cause) → (∀ a r, c ≠ .resetRelease a r) →
    (∀ a r, c ≠ .powerOnRelease a r) →
    t.bank s.live = s.bank s.live ∧
    ((t.live = s.live ∧ t.generation = s.generation) ∨
      (s.otherRole = .staged ∧ t.live = s.live.other ∧ t.generation = s.generation + 1 ∧
        t.bankA = s.bankA ∧ t.bankB = s.bankB))

/-- R98, R166: an event of one branch line changes no other line, framer, driver enable or counter, not
the trunk port, no bank content and no record of another branch; it fills no FREE slot and no issue
counter advances. -/
def Obligations.BranchEventsStayOnTheirBranch : Prop :=
  ∀ (c : Instr) (s t : State) (b : Branch), OnLineIsAttempt s → QueueHoldsQueued s →
    isEventOf c b →
    exec c s = .next t →
    (∀ b', b' ≠ b → t.line b' = s.line b' ∧ t.branchCounters.get b' = s.branchCounters.get b') ∧
    (∀ l, l ≠ lineOf b → t.framer l = s.framer l ∧
      t.driverEnable.get l = s.driverEnable.get l) ∧
    (∀ i r, s.record i = some r → r.branch ≠ b → t.record i = some r) ∧
    (∀ i, t.issue i = s.issue i ∧ (s.record i = none → t.record i = none)) ∧
    t = { s with
          framers := t.framers, driverEnable := t.driverEnable, slots := t.slots, attn := t.attn,
          otherRole := t.otherRole, drainCount := t.drainCount, lines := t.lines,
          branchCounters := t.branchCounters }

end
end

