-- ==== Sys2Proof/Laws/Vectors.lean ====
section
/-! SUPPORT. What a fixed table of entries reads as after an update: the laws of `Vector` that the
laws of State rest on, all by index in `Fin`. -/

namespace Sys2Proof.Laws

variable {α β : Type} {n : Nat}

theorem get_eq_getElem (v : Vector α n) (i : Fin n) : v.get i = v[i.val] := rfl

@[simp] theorem get_set (v : Vector α n) (i j : Fin n) (x : α) :
    (v.set i x).get j = if j = i then x else v.get j := by
  by_cases h : j = i
  · subst h; simp [get_eq_getElem]
  · have h' : i.val ≠ j.val := fun e => h (Fin.ext e.symm)
    simp [get_eq_getElem, h, h']

theorem get_ext {v w : Vector α n} (h : ∀ i : Fin n, v.get i = w.get i) : v = w :=
  Vector.ext fun i hi => h ⟨i, hi⟩

@[simp] theorem set_get_self (v : Vector α n) (i : Fin n) : v.set i (v.get i) = v :=
  get_ext fun j => by rw [get_set]; split <;> simp_all

@[simp] theorem set_set_same (v : Vector α n) (i : Fin n) (x y : α) :
    (v.set i x).set i y = v.set i y :=
  get_ext fun j => by simp only [get_set]; split <;> rfl

theorem set_comm (v : Vector α n) {i j : Fin n} (h : i ≠ j) (x y : α) :
    (v.set i x).set j y = (v.set j y).set i x :=
  get_ext fun k => by
    simp only [get_set]
    by_cases hj : k = j
    · have hi : k ≠ i := fun e => h (e ▸ hj)
      simp [hj, Ne.symm h]
    · simp [hj]

@[simp] theorem get_replicate (x : α) (i : Fin n) : (Vector.replicate n x).get i = x := by
  simp [get_eq_getElem]

@[simp] theorem get_map (f : α → β) (v : Vector α n) (i : Fin n) :
    (v.map f).get i = f (v.get i) := by simp [get_eq_getElem]

@[simp] theorem get_ofFn (f : Fin n → α) (i : Fin n) : (Vector.ofFn f).get i = f i := by
  simp [get_eq_getElem]

end Sys2Proof.Laws
end

