-- ==== Sys2Proof/Laws/State.lean ====
section
/-! SUPPORT. The updates of State that the operations are built from: one law for each field that an
update leaves as it was, the readings of the parts it leaves as they were, and what the part that it
writes reads as afterwards. -/

namespace Sys2Proof.Laws

open Sys2Proof.Machine

/-! ### Lines and branches -/

@[simp] theorem branchOf_lineOf (b : Branch) : branchOf (lineOf b) = some b := by
  simp [branchOf, lineOf]

@[simp] theorem branchOf_zero : branchOf 0 = none := rfl

@[simp] theorem lineOf_ne_zero (b : Branch) : lineOf b ≠ 0 := Fin.succ_ne_zero b

@[simp] theorem zero_ne_lineOf (b : Branch) : (0 : Line) ≠ lineOf b := (Fin.succ_ne_zero b).symm

@[simp] theorem lineOf_inj {b c : Branch} : lineOf b = lineOf c ↔ b = c := Fin.succ_inj

/-- A line is the trunk or the line of a branch. -/
theorem line_cases (l : Line) : l = 0 ∨ ∃ b, l = lineOf b := Fin.eq_zero_or_eq_succ l


/-! ### `setMode` -/

@[simp] theorem setMode_pinReset (s : State) (l : Line) (m : FramerMode) :
    (s.setMode l m).pinReset = s.pinReset := rfl
@[simp] theorem setMode_supplyReset (s : State) (l : Line) (m : FramerMode) :
    (s.setMode l m).supplyReset = s.supplyReset := rfl
@[simp] theorem setMode_ownAddress (s : State) (l : Line) (m : FramerMode) :
    (s.setMode l m).ownAddress = s.ownAddress := rfl
@[simp] theorem setMode_driverEnable (s : State) (l : Line) (m : FramerMode) :
    (s.setMode l m).driverEnable = s.driverEnable := rfl
@[simp] theorem setMode_answer (s : State) (l : Line) (m : FramerMode) :
    (s.setMode l m).answer = s.answer := rfl
@[simp] theorem setMode_holdTime (s : State) (l : Line) (m : FramerMode) :
    (s.setMode l m).holdTime = s.holdTime := rfl
@[simp] theorem setMode_lingerTime (s : State) (l : Line) (m : FramerMode) :
    (s.setMode l m).lingerTime = s.lingerTime := rfl
@[simp] theorem setMode_slots (s : State) (l : Line) (m : FramerMode) :
    (s.setMode l m).slots = s.slots := rfl
@[simp] theorem setMode_nextAdmission (s : State) (l : Line) (m : FramerMode) :
    (s.setMode l m).nextAdmission = s.nextAdmission := rfl
@[simp] theorem setMode_nextDelivery (s : State) (l : Line) (m : FramerMode) :
    (s.setMode l m).nextDelivery = s.nextDelivery := rfl
@[simp] theorem setMode_attn (s : State) (l : Line) (m : FramerMode) :
    (s.setMode l m).attn = s.attn := rfl
@[simp] theorem setMode_bankA (s : State) (l : Line) (m : FramerMode) :
    (s.setMode l m).bankA = s.bankA := rfl
@[simp] theorem setMode_bankB (s : State) (l : Line) (m : FramerMode) :
    (s.setMode l m).bankB = s.bankB := rfl
@[simp] theorem setMode_live (s : State) (l : Line) (m : FramerMode) :
    (s.setMode l m).live = s.live := rfl
@[simp] theorem setMode_otherRole (s : State) (l : Line) (m : FramerMode) :
    (s.setMode l m).otherRole = s.otherRole := rfl
@[simp] theorem setMode_generation (s : State) (l : Line) (m : FramerMode) :
    (s.setMode l m).generation = s.generation := rfl
@[simp] theorem setMode_drainCount (s : State) (l : Line) (m : FramerMode) :
    (s.setMode l m).drainCount = s.drainCount := rfl
@[simp] theorem setMode_lines (s : State) (l : Line) (m : FramerMode) :
    (s.setMode l m).lines = s.lines := rfl
@[simp] theorem setMode_pendingRestart (s : State) (l : Line) (m : FramerMode) :
    (s.setMode l m).pendingRestart = s.pendingRestart := rfl
@[simp] theorem setMode_trunkCounters (s : State) (l : Line) (m : FramerMode) :
    (s.setMode l m).trunkCounters = s.trunkCounters := rfl
@[simp] theorem setMode_branchCounters (s : State) (l : Line) (m : FramerMode) :
    (s.setMode l m).branchCounters = s.branchCounters := rfl
@[simp] theorem setMode_freeChoices (s : State) (l : Line) (m : FramerMode) :
    (s.setMode l m).freeChoices = s.freeChoices := rfl
@[simp] theorem setMode_pending (s : State) (l : Line) (m : FramerMode) :
    (s.setMode l m).pending = s.pending := rfl

/-- The readings that `setMode` leaves as they were. -/
@[simp] theorem setMode_reads (s : State) (l : Line) (m : FramerMode) :
    (∀ b', (s.setMode l m).line b' = s.line b') ∧
    (∀ i', (s.setMode l m).record i' = s.record i') ∧
    (∀ i', (s.setMode l m).issue i' = s.issue i') ∧
    (∀ i', (s.setMode l m).ticket i' = s.ticket i') ∧
    (∀ k', (s.setMode l m).bank k' = s.bank k') ∧ (s.setMode l m).liveBank = s.liveBank ∧
    (s.setMode l m).otherBank = s.otherBank ∧
    (∀ c', (s.setMode l m).trunkCount c' = s.trunkCount c') ∧
    (∀ b' c', (s.setMode l m).branchCount b' c' = s.branchCount b' c') ∧
    (∀ p', (s.setMode l m).someRecord p' = s.someRecord p') ∧
    (∀ p', (s.setMode l m).countRecords p' = s.countRecords p') ∧
    (∀ b', (s.setMode l m).activeCount b' = s.activeCount b') ∧
    (∀ k', (s.setMode l m).activeIn k' = s.activeIn k') ∧
    (∀ i', (s.setMode l m).eligible i' = s.eligible i') ∧ (s.setMode l m).inReset = s.inReset :=
  ⟨fun _ => rfl, fun _ => rfl, fun _ => rfl, fun _ => rfl, fun k => by cases k <;> rfl, rfl, rfl,
   fun _ => rfl, fun _ _ => rfl, fun _ => rfl, fun _ => rfl, fun _ => rfl, fun _ => rfl,
   fun _ => rfl, rfl⟩

/-! ### `setRate` -/

@[simp] theorem setRate_pinReset (s : State) (l : Line) (r : RateCode) :
    (s.setRate l r).pinReset = s.pinReset := rfl
@[simp] theorem setRate_supplyReset (s : State) (l : Line) (r : RateCode) :
    (s.setRate l r).supplyReset = s.supplyReset := rfl
@[simp] theorem setRate_ownAddress (s : State) (l : Line) (r : RateCode) :
    (s.setRate l r).ownAddress = s.ownAddress := rfl
@[simp] theorem setRate_driverEnable (s : State) (l : Line) (r : RateCode) :
    (s.setRate l r).driverEnable = s.driverEnable := rfl
@[simp] theorem setRate_answer (s : State) (l : Line) (r : RateCode) :
    (s.setRate l r).answer = s.answer := rfl
@[simp] theorem setRate_holdTime (s : State) (l : Line) (r : RateCode) :
    (s.setRate l r).holdTime = s.holdTime := rfl
@[simp] theorem setRate_lingerTime (s : State) (l : Line) (r : RateCode) :
    (s.setRate l r).lingerTime = s.lingerTime := rfl
@[simp] theorem setRate_slots (s : State) (l : Line) (r : RateCode) :
    (s.setRate l r).slots = s.slots := rfl
@[simp] theorem setRate_nextAdmission (s : State) (l : Line) (r : RateCode) :
    (s.setRate l r).nextAdmission = s.nextAdmission := rfl
@[simp] theorem setRate_nextDelivery (s : State) (l : Line) (r : RateCode) :
    (s.setRate l r).nextDelivery = s.nextDelivery := rfl
@[simp] theorem setRate_attn (s : State) (l : Line) (r : RateCode) :
    (s.setRate l r).attn = s.attn := rfl
@[simp] theorem setRate_bankA (s : State) (l : Line) (r : RateCode) :
    (s.setRate l r).bankA = s.bankA := rfl
@[simp] theorem setRate_bankB (s : State) (l : Line) (r : RateCode) :
    (s.setRate l r).bankB = s.bankB := rfl
@[simp] theorem setRate_live (s : State) (l : Line) (r : RateCode) :
    (s.setRate l r).live = s.live := rfl
@[simp] theorem setRate_otherRole (s : State) (l : Line) (r : RateCode) :
    (s.setRate l r).otherRole = s.otherRole := rfl
@[simp] theorem setRate_generation (s : State) (l : Line) (r : RateCode) :
    (s.setRate l r).generation = s.generation := rfl
@[simp] theorem setRate_drainCount (s : State) (l : Line) (r : RateCode) :
    (s.setRate l r).drainCount = s.drainCount := rfl
@[simp] theorem setRate_lines (s : State) (l : Line) (r : RateCode) :
    (s.setRate l r).lines = s.lines := rfl
@[simp] theorem setRate_pendingRestart (s : State) (l : Line) (r : RateCode) :
    (s.setRate l r).pendingRestart = s.pendingRestart := rfl
@[simp] theorem setRate_trunkCounters (s : State) (l : Line) (r : RateCode) :
    (s.setRate l r).trunkCounters = s.trunkCounters := rfl
@[simp] theorem setRate_branchCounters (s : State) (l : Line) (r : RateCode) :
    (s.setRate l r).branchCounters = s.branchCounters := rfl
@[simp] theorem setRate_freeChoices (s : State) (l : Line) (r : RateCode) :
    (s.setRate l r).freeChoices = s.freeChoices := rfl
@[simp] theorem setRate_pending (s : State) (l : Line) (r : RateCode) :
    (s.setRate l r).pending = s.pending := rfl

/-- The readings that `setRate` leaves as they were. -/
@[simp] theorem setRate_reads (s : State) (l : Line) (r : RateCode) :
    (∀ b', (s.setRate l r).line b' = s.line b') ∧
    (∀ i', (s.setRate l r).record i' = s.record i') ∧
    (∀ i', (s.setRate l r).issue i' = s.issue i') ∧
    (∀ i', (s.setRate l r).ticket i' = s.ticket i') ∧
    (∀ k', (s.setRate l r).bank k' = s.bank k') ∧ (s.setRate l r).liveBank = s.liveBank ∧
    (s.setRate l r).otherBank = s.otherBank ∧
    (∀ c', (s.setRate l r).trunkCount c' = s.trunkCount c') ∧
    (∀ b' c', (s.setRate l r).branchCount b' c' = s.branchCount b' c') ∧
    (∀ p', (s.setRate l r).someRecord p' = s.someRecord p') ∧
    (∀ p', (s.setRate l r).countRecords p' = s.countRecords p') ∧
    (∀ b', (s.setRate l r).activeCount b' = s.activeCount b') ∧
    (∀ k', (s.setRate l r).activeIn k' = s.activeIn k') ∧
    (∀ i', (s.setRate l r).eligible i' = s.eligible i') ∧ (s.setRate l r).inReset = s.inReset :=
  ⟨fun _ => rfl, fun _ => rfl, fun _ => rfl, fun _ => rfl, fun k => by cases k <;> rfl, rfl, rfl,
   fun _ => rfl, fun _ _ => rfl, fun _ => rfl, fun _ => rfl, fun _ => rfl, fun _ => rfl,
   fun _ => rfl, rfl⟩

/-! ### `setLine` -/

@[simp] theorem setLine_pinReset (s : State) (b : Branch) (ln : BranchLine) :
    (s.setLine b ln).pinReset = s.pinReset := rfl
@[simp] theorem setLine_supplyReset (s : State) (b : Branch) (ln : BranchLine) :
    (s.setLine b ln).supplyReset = s.supplyReset := rfl
@[simp] theorem setLine_ownAddress (s : State) (b : Branch) (ln : BranchLine) :
    (s.setLine b ln).ownAddress = s.ownAddress := rfl
@[simp] theorem setLine_framers (s : State) (b : Branch) (ln : BranchLine) :
    (s.setLine b ln).framers = s.framers := rfl
@[simp] theorem setLine_driverEnable (s : State) (b : Branch) (ln : BranchLine) :
    (s.setLine b ln).driverEnable = s.driverEnable := rfl
@[simp] theorem setLine_answer (s : State) (b : Branch) (ln : BranchLine) :
    (s.setLine b ln).answer = s.answer := rfl
@[simp] theorem setLine_holdTime (s : State) (b : Branch) (ln : BranchLine) :
    (s.setLine b ln).holdTime = s.holdTime := rfl
@[simp] theorem setLine_lingerTime (s : State) (b : Branch) (ln : BranchLine) :
    (s.setLine b ln).lingerTime = s.lingerTime := rfl
@[simp] theorem setLine_slots (s : State) (b : Branch) (ln : BranchLine) :
    (s.setLine b ln).slots = s.slots := rfl
@[simp] theorem setLine_nextAdmission (s : State) (b : Branch) (ln : BranchLine) :
    (s.setLine b ln).nextAdmission = s.nextAdmission := rfl
@[simp] theorem setLine_nextDelivery (s : State) (b : Branch) (ln : BranchLine) :
    (s.setLine b ln).nextDelivery = s.nextDelivery := rfl
@[simp] theorem setLine_attn (s : State) (b : Branch) (ln : BranchLine) :
    (s.setLine b ln).attn = s.attn := rfl
@[simp] theorem setLine_bankA (s : State) (b : Branch) (ln : BranchLine) :
    (s.setLine b ln).bankA = s.bankA := rfl
@[simp] theorem setLine_bankB (s : State) (b : Branch) (ln : BranchLine) :
    (s.setLine b ln).bankB = s.bankB := rfl
@[simp] theorem setLine_live (s : State) (b : Branch) (ln : BranchLine) :
    (s.setLine b ln).live = s.live := rfl
@[simp] theorem setLine_otherRole (s : State) (b : Branch) (ln : BranchLine) :
    (s.setLine b ln).otherRole = s.otherRole := rfl
@[simp] theorem setLine_generation (s : State) (b : Branch) (ln : BranchLine) :
    (s.setLine b ln).generation = s.generation := rfl
@[simp] theorem setLine_drainCount (s : State) (b : Branch) (ln : BranchLine) :
    (s.setLine b ln).drainCount = s.drainCount := rfl
@[simp] theorem setLine_pendingRestart (s : State) (b : Branch) (ln : BranchLine) :
    (s.setLine b ln).pendingRestart = s.pendingRestart := rfl
@[simp] theorem setLine_trunkCounters (s : State) (b : Branch) (ln : BranchLine) :
    (s.setLine b ln).trunkCounters = s.trunkCounters := rfl
@[simp] theorem setLine_branchCounters (s : State) (b : Branch) (ln : BranchLine) :
    (s.setLine b ln).branchCounters = s.branchCounters := rfl
@[simp] theorem setLine_freeChoices (s : State) (b : Branch) (ln : BranchLine) :
    (s.setLine b ln).freeChoices = s.freeChoices := rfl
@[simp] theorem setLine_pending (s : State) (b : Branch) (ln : BranchLine) :
    (s.setLine b ln).pending = s.pending := rfl

/-- The readings that `setLine` leaves as they were. -/
@[simp] theorem setLine_reads (s : State) (b : Branch) (ln : BranchLine) :
    (∀ l', (s.setLine b ln).framer l' = s.framer l') ∧
    (∀ i', (s.setLine b ln).record i' = s.record i') ∧
    (∀ i', (s.setLine b ln).issue i' = s.issue i') ∧
    (∀ i', (s.setLine b ln).ticket i' = s.ticket i') ∧
    (∀ k', (s.setLine b ln).bank k' = s.bank k') ∧ (s.setLine b ln).liveBank = s.liveBank ∧
    (s.setLine b ln).otherBank = s.otherBank ∧
    (∀ c', (s.setLine b ln).trunkCount c' = s.trunkCount c') ∧
    (∀ b' c', (s.setLine b ln).branchCount b' c' = s.branchCount b' c') ∧
    (∀ p', (s.setLine b ln).someRecord p' = s.someRecord p') ∧
    (∀ p', (s.setLine b ln).countRecords p' = s.countRecords p') ∧
    (∀ b', (s.setLine b ln).activeCount b' = s.activeCount b') ∧
    (∀ k', (s.setLine b ln).activeIn k' = s.activeIn k') ∧
    (∀ i', (s.setLine b ln).eligible i' = s.eligible i') ∧
    (s.setLine b ln).inReset = s.inReset :=
  ⟨fun _ => rfl, fun _ => rfl, fun _ => rfl, fun _ => rfl, fun k => by cases k <;> rfl, rfl, rfl,
   fun _ => rfl, fun _ _ => rfl, fun _ => rfl, fun _ => rfl, fun _ => rfl, fun _ => rfl,
   fun _ => rfl, rfl⟩

/-! ### `setLineState` -/

@[simp] theorem setLineState_pinReset (s : State) (b : Branch) (st : LineState) :
    (s.setLineState b st).pinReset = s.pinReset := rfl
@[simp] theorem setLineState_supplyReset (s : State) (b : Branch) (st : LineState) :
    (s.setLineState b st).supplyReset = s.supplyReset := rfl
@[simp] theorem setLineState_ownAddress (s : State) (b : Branch) (st : LineState) :
    (s.setLineState b st).ownAddress = s.ownAddress := rfl
@[simp] theorem setLineState_framers (s : State) (b : Branch) (st : LineState) :
    (s.setLineState b st).framers = s.framers := rfl
@[simp] theorem setLineState_driverEnable (s : State) (b : Branch) (st : LineState) :
    (s.setLineState b st).driverEnable = s.driverEnable := rfl
@[simp] theorem setLineState_answer (s : State) (b : Branch) (st : LineState) :
    (s.setLineState b st).answer = s.answer := rfl
@[simp] theorem setLineState_holdTime (s : State) (b : Branch) (st : LineState) :
    (s.setLineState b st).holdTime = s.holdTime := rfl
@[simp] theorem setLineState_lingerTime (s : State) (b : Branch) (st : LineState) :
    (s.setLineState b st).lingerTime = s.lingerTime := rfl
@[simp] theorem setLineState_slots (s : State) (b : Branch) (st : LineState) :
    (s.setLineState b st).slots = s.slots := rfl
@[simp] theorem setLineState_nextAdmission (s : State) (b : Branch) (st : LineState) :
    (s.setLineState b st).nextAdmission = s.nextAdmission := rfl
@[simp] theorem setLineState_nextDelivery (s : State) (b : Branch) (st : LineState) :
    (s.setLineState b st).nextDelivery = s.nextDelivery := rfl
@[simp] theorem setLineState_attn (s : State) (b : Branch) (st : LineState) :
    (s.setLineState b st).attn = s.attn := rfl
@[simp] theorem setLineState_bankA (s : State) (b : Branch) (st : LineState) :
    (s.setLineState b st).bankA = s.bankA := rfl
@[simp] theorem setLineState_bankB (s : State) (b : Branch) (st : LineState) :
    (s.setLineState b st).bankB = s.bankB := rfl
@[simp] theorem setLineState_live (s : State) (b : Branch) (st : LineState) :
    (s.setLineState b st).live = s.live := rfl
@[simp] theorem setLineState_otherRole (s : State) (b : Branch) (st : LineState) :
    (s.setLineState b st).otherRole = s.otherRole := rfl
@[simp] theorem setLineState_generation (s : State) (b : Branch) (st : LineState) :
    (s.setLineState b st).generation = s.generation := rfl
@[simp] theorem setLineState_drainCount (s : State) (b : Branch) (st : LineState) :
    (s.setLineState b st).drainCount = s.drainCount := rfl
@[simp] theorem setLineState_pendingRestart (s : State) (b : Branch) (st : LineState) :
    (s.setLineState b st).pendingRestart = s.pendingRestart := rfl
@[simp] theorem setLineState_trunkCounters (s : State) (b : Branch) (st : LineState) :
    (s.setLineState b st).trunkCounters = s.trunkCounters := rfl
@[simp] theorem setLineState_branchCounters (s : State) (b : Branch) (st : LineState) :
    (s.setLineState b st).branchCounters = s.branchCounters := rfl
@[simp] theorem setLineState_freeChoices (s : State) (b : Branch) (st : LineState) :
    (s.setLineState b st).freeChoices = s.freeChoices := rfl
@[simp] theorem setLineState_pending (s : State) (b : Branch) (st : LineState) :
    (s.setLineState b st).pending = s.pending := rfl

/-- The readings that `setLineState` leaves as they were. -/
@[simp] theorem setLineState_reads (s : State) (b : Branch) (st : LineState) :
    (∀ l', (s.setLineState b st).framer l' = s.framer l') ∧
    (∀ i', (s.setLineState b st).record i' = s.record i') ∧
    (∀ i', (s.setLineState b st).issue i' = s.issue i') ∧
    (∀ i', (s.setLineState b st).ticket i' = s.ticket i') ∧
    (∀ k', (s.setLineState b st).bank k' = s.bank k') ∧
    (s.setLineState b st).liveBank = s.liveBank ∧ (s.setLineState b st).otherBank = s.otherBank ∧
    (∀ c', (s.setLineState b st).trunkCount c' = s.trunkCount c') ∧
    (∀ b' c', (s.setLineState b st).branchCount b' c' = s.branchCount b' c') ∧
    (∀ p', (s.setLineState b st).someRecord p' = s.someRecord p') ∧
    (∀ p', (s.setLineState b st).countRecords p' = s.countRecords p') ∧
    (∀ b', (s.setLineState b st).activeCount b' = s.activeCount b') ∧
    (∀ k', (s.setLineState b st).activeIn k' = s.activeIn k') ∧
    (∀ i', (s.setLineState b st).eligible i' = s.eligible i') ∧
    (s.setLineState b st).inReset = s.inReset :=
  ⟨fun _ => rfl, fun _ => rfl, fun _ => rfl, fun _ => rfl, fun k => by cases k <;> rfl, rfl, rfl,
   fun _ => rfl, fun _ _ => rfl, fun _ => rfl, fun _ => rfl, fun _ => rfl, fun _ => rfl,
   fun _ => rfl, rfl⟩

/-! ### `setRecord` -/

@[simp] theorem setRecord_pinReset (s : State) (i : SlotId) (r : Option Record) :
    (s.setRecord i r).pinReset = s.pinReset := rfl
@[simp] theorem setRecord_supplyReset (s : State) (i : SlotId) (r : Option Record) :
    (s.setRecord i r).supplyReset = s.supplyReset := rfl
@[simp] theorem setRecord_ownAddress (s : State) (i : SlotId) (r : Option Record) :
    (s.setRecord i r).ownAddress = s.ownAddress := rfl
@[simp] theorem setRecord_framers (s : State) (i : SlotId) (r : Option Record) :
    (s.setRecord i r).framers = s.framers := rfl
@[simp] theorem setRecord_driverEnable (s : State) (i : SlotId) (r : Option Record) :
    (s.setRecord i r).driverEnable = s.driverEnable := rfl
@[simp] theorem setRecord_answer (s : State) (i : SlotId) (r : Option Record) :
    (s.setRecord i r).answer = s.answer := rfl
@[simp] theorem setRecord_holdTime (s : State) (i : SlotId) (r : Option Record) :
    (s.setRecord i r).holdTime = s.holdTime := rfl
@[simp] theorem setRecord_lingerTime (s : State) (i : SlotId) (r : Option Record) :
    (s.setRecord i r).lingerTime = s.lingerTime := rfl
@[simp] theorem setRecord_nextAdmission (s : State) (i : SlotId) (r : Option Record) :
    (s.setRecord i r).nextAdmission = s.nextAdmission := rfl
@[simp] theorem setRecord_nextDelivery (s : State) (i : SlotId) (r : Option Record) :
    (s.setRecord i r).nextDelivery = s.nextDelivery := rfl
@[simp] theorem setRecord_attn (s : State) (i : SlotId) (r : Option Record) :
    (s.setRecord i r).attn = s.attn := rfl
@[simp] theorem setRecord_bankA (s : State) (i : SlotId) (r : Option Record) :
    (s.setRecord i r).bankA = s.bankA := rfl
@[simp] theorem setRecord_bankB (s : State) (i : SlotId) (r : Option Record) :
    (s.setRecord i r).bankB = s.bankB := rfl
@[simp] theorem setRecord_live (s : State) (i : SlotId) (r : Option Record) :
    (s.setRecord i r).live = s.live := rfl
@[simp] theorem setRecord_otherRole (s : State) (i : SlotId) (r : Option Record) :
    (s.setRecord i r).otherRole = s.otherRole := rfl
@[simp] theorem setRecord_generation (s : State) (i : SlotId) (r : Option Record) :
    (s.setRecord i r).generation = s.generation := rfl
@[simp] theorem setRecord_drainCount (s : State) (i : SlotId) (r : Option Record) :
    (s.setRecord i r).drainCount = s.drainCount := rfl
@[simp] theorem setRecord_lines (s : State) (i : SlotId) (r : Option Record) :
    (s.setRecord i r).lines = s.lines := rfl
@[simp] theorem setRecord_pendingRestart (s : State) (i : SlotId) (r : Option Record) :
    (s.setRecord i r).pendingRestart = s.pendingRestart := rfl
@[simp] theorem setRecord_trunkCounters (s : State) (i : SlotId) (r : Option Record) :
    (s.setRecord i r).trunkCounters = s.trunkCounters := rfl
@[simp] theorem setRecord_branchCounters (s : State) (i : SlotId) (r : Option Record) :
    (s.setRecord i r).branchCounters = s.branchCounters := rfl
@[simp] theorem setRecord_freeChoices (s : State) (i : SlotId) (r : Option Record) :
    (s.setRecord i r).freeChoices = s.freeChoices := rfl
@[simp] theorem setRecord_pending (s : State) (i : SlotId) (r : Option Record) :
    (s.setRecord i r).pending = s.pending := rfl

/-- The readings that `setRecord` leaves as they were. -/
@[simp] theorem setRecord_reads (s : State) (i : SlotId) (r : Option Record) :
    (∀ l', (s.setRecord i r).framer l' = s.framer l') ∧
    (∀ b', (s.setRecord i r).line b' = s.line b') ∧
    (∀ k', (s.setRecord i r).bank k' = s.bank k') ∧ (s.setRecord i r).liveBank = s.liveBank ∧
    (s.setRecord i r).otherBank = s.otherBank ∧
    (∀ c', (s.setRecord i r).trunkCount c' = s.trunkCount c') ∧
    (∀ b' c', (s.setRecord i r).branchCount b' c' = s.branchCount b' c') ∧
    (s.setRecord i r).inReset = s.inReset :=
  ⟨fun _ => rfl, fun _ => rfl, fun k => by cases k <;> rfl, rfl, rfl, fun _ => rfl,
   fun _ _ => rfl, rfl⟩

/-! ### `setIssue` -/

@[simp] theorem setIssue_pinReset (s : State) (i : SlotId) (n : BitVec 4) :
    (s.setIssue i n).pinReset = s.pinReset := rfl
@[simp] theorem setIssue_supplyReset (s : State) (i : SlotId) (n : BitVec 4) :
    (s.setIssue i n).supplyReset = s.supplyReset := rfl
@[simp] theorem setIssue_ownAddress (s : State) (i : SlotId) (n : BitVec 4) :
    (s.setIssue i n).ownAddress = s.ownAddress := rfl
@[simp] theorem setIssue_framers (s : State) (i : SlotId) (n : BitVec 4) :
    (s.setIssue i n).framers = s.framers := rfl
@[simp] theorem setIssue_driverEnable (s : State) (i : SlotId) (n : BitVec 4) :
    (s.setIssue i n).driverEnable = s.driverEnable := rfl
@[simp] theorem setIssue_answer (s : State) (i : SlotId) (n : BitVec 4) :
    (s.setIssue i n).answer = s.answer := rfl
@[simp] theorem setIssue_holdTime (s : State) (i : SlotId) (n : BitVec 4) :
    (s.setIssue i n).holdTime = s.holdTime := rfl
@[simp] theorem setIssue_lingerTime (s : State) (i : SlotId) (n : BitVec 4) :
    (s.setIssue i n).lingerTime = s.lingerTime := rfl
@[simp] theorem setIssue_nextAdmission (s : State) (i : SlotId) (n : BitVec 4) :
    (s.setIssue i n).nextAdmission = s.nextAdmission := rfl
@[simp] theorem setIssue_nextDelivery (s : State) (i : SlotId) (n : BitVec 4) :
    (s.setIssue i n).nextDelivery = s.nextDelivery := rfl
@[simp] theorem setIssue_attn (s : State) (i : SlotId) (n : BitVec 4) :
    (s.setIssue i n).attn = s.attn := rfl
@[simp] theorem setIssue_bankA (s : State) (i : SlotId) (n : BitVec 4) :
    (s.setIssue i n).bankA = s.bankA := rfl
@[simp] theorem setIssue_bankB (s : State) (i : SlotId) (n : BitVec 4) :
    (s.setIssue i n).bankB = s.bankB := rfl
@[simp] theorem setIssue_live (s : State) (i : SlotId) (n : BitVec 4) :
    (s.setIssue i n).live = s.live := rfl
@[simp] theorem setIssue_otherRole (s : State) (i : SlotId) (n : BitVec 4) :
    (s.setIssue i n).otherRole = s.otherRole := rfl
@[simp] theorem setIssue_generation (s : State) (i : SlotId) (n : BitVec 4) :
    (s.setIssue i n).generation = s.generation := rfl
@[simp] theorem setIssue_drainCount (s : State) (i : SlotId) (n : BitVec 4) :
    (s.setIssue i n).drainCount = s.drainCount := rfl
@[simp] theorem setIssue_lines (s : State) (i : SlotId) (n : BitVec 4) :
    (s.setIssue i n).lines = s.lines := rfl
@[simp] theorem setIssue_pendingRestart (s : State) (i : SlotId) (n : BitVec 4) :
    (s.setIssue i n).pendingRestart = s.pendingRestart := rfl
@[simp] theorem setIssue_trunkCounters (s : State) (i : SlotId) (n : BitVec 4) :
    (s.setIssue i n).trunkCounters = s.trunkCounters := rfl
@[simp] theorem setIssue_branchCounters (s : State) (i : SlotId) (n : BitVec 4) :
    (s.setIssue i n).branchCounters = s.branchCounters := rfl
@[simp] theorem setIssue_freeChoices (s : State) (i : SlotId) (n : BitVec 4) :
    (s.setIssue i n).freeChoices = s.freeChoices := rfl
@[simp] theorem setIssue_pending (s : State) (i : SlotId) (n : BitVec 4) :
    (s.setIssue i n).pending = s.pending := rfl

/-- The readings that `setIssue` leaves as they were. -/
@[simp] theorem setIssue_reads (s : State) (i : SlotId) (n : BitVec 4) :
    (∀ l', (s.setIssue i n).framer l' = s.framer l') ∧
    (∀ b', (s.setIssue i n).line b' = s.line b') ∧ (∀ k', (s.setIssue i n).bank k' = s.bank k') ∧
    (s.setIssue i n).liveBank = s.liveBank ∧ (s.setIssue i n).otherBank = s.otherBank ∧
    (∀ c', (s.setIssue i n).trunkCount c' = s.trunkCount c') ∧
    (∀ b' c', (s.setIssue i n).branchCount b' c' = s.branchCount b' c') ∧
    (s.setIssue i n).inReset = s.inReset :=
  ⟨fun _ => rfl, fun _ => rfl, fun k => by cases k <;> rfl, rfl, rfl, fun _ => rfl,
   fun _ _ => rfl, rfl⟩

/-! ### `setDriver` -/

@[simp] theorem setDriver_pinReset (s : State) (l : Line) (high : Bool) :
    (s.setDriver l high).pinReset = s.pinReset := rfl
@[simp] theorem setDriver_supplyReset (s : State) (l : Line) (high : Bool) :
    (s.setDriver l high).supplyReset = s.supplyReset := rfl
@[simp] theorem setDriver_ownAddress (s : State) (l : Line) (high : Bool) :
    (s.setDriver l high).ownAddress = s.ownAddress := rfl
@[simp] theorem setDriver_framers (s : State) (l : Line) (high : Bool) :
    (s.setDriver l high).framers = s.framers := rfl
@[simp] theorem setDriver_answer (s : State) (l : Line) (high : Bool) :
    (s.setDriver l high).answer = s.answer := rfl
@[simp] theorem setDriver_holdTime (s : State) (l : Line) (high : Bool) :
    (s.setDriver l high).holdTime = s.holdTime := rfl
@[simp] theorem setDriver_lingerTime (s : State) (l : Line) (high : Bool) :
    (s.setDriver l high).lingerTime = s.lingerTime := rfl
@[simp] theorem setDriver_slots (s : State) (l : Line) (high : Bool) :
    (s.setDriver l high).slots = s.slots := rfl
@[simp] theorem setDriver_nextAdmission (s : State) (l : Line) (high : Bool) :
    (s.setDriver l high).nextAdmission = s.nextAdmission := rfl
@[simp] theorem setDriver_nextDelivery (s : State) (l : Line) (high : Bool) :
    (s.setDriver l high).nextDelivery = s.nextDelivery := rfl
@[simp] theorem setDriver_attn (s : State) (l : Line) (high : Bool) :
    (s.setDriver l high).attn = s.attn := rfl
@[simp] theorem setDriver_bankA (s : State) (l : Line) (high : Bool) :
    (s.setDriver l high).bankA = s.bankA := rfl
@[simp] theorem setDriver_bankB (s : State) (l : Line) (high : Bool) :
    (s.setDriver l high).bankB = s.bankB := rfl
@[simp] theorem setDriver_live (s : State) (l : Line) (high : Bool) :
    (s.setDriver l high).live = s.live := rfl
@[simp] theorem setDriver_otherRole (s : State) (l : Line) (high : Bool) :
    (s.setDriver l high).otherRole = s.otherRole := rfl
@[simp] theorem setDriver_generation (s : State) (l : Line) (high : Bool) :
    (s.setDriver l high).generation = s.generation := rfl
@[simp] theorem setDriver_drainCount (s : State) (l : Line) (high : Bool) :
    (s.setDriver l high).drainCount = s.drainCount := rfl
@[simp] theorem setDriver_lines (s : State) (l : Line) (high : Bool) :
    (s.setDriver l high).lines = s.lines := rfl
@[simp] theorem setDriver_pendingRestart (s : State) (l : Line) (high : Bool) :
    (s.setDriver l high).pendingRestart = s.pendingRestart := rfl
@[simp] theorem setDriver_trunkCounters (s : State) (l : Line) (high : Bool) :
    (s.setDriver l high).trunkCounters = s.trunkCounters := rfl
@[simp] theorem setDriver_branchCounters (s : State) (l : Line) (high : Bool) :
    (s.setDriver l high).branchCounters = s.branchCounters := rfl
@[simp] theorem setDriver_freeChoices (s : State) (l : Line) (high : Bool) :
    (s.setDriver l high).freeChoices = s.freeChoices := rfl
@[simp] theorem setDriver_pending (s : State) (l : Line) (high : Bool) :
    (s.setDriver l high).pending = s.pending := rfl

/-- The readings that `setDriver` leaves as they were. -/
@[simp] theorem setDriver_reads (s : State) (l : Line) (high : Bool) :
    (∀ l', (s.setDriver l high).framer l' = s.framer l') ∧
    (∀ b', (s.setDriver l high).line b' = s.line b') ∧
    (∀ i', (s.setDriver l high).record i' = s.record i') ∧
    (∀ i', (s.setDriver l high).issue i' = s.issue i') ∧
    (∀ i', (s.setDriver l high).ticket i' = s.ticket i') ∧
    (∀ k', (s.setDriver l high).bank k' = s.bank k') ∧
    (s.setDriver l high).liveBank = s.liveBank ∧ (s.setDriver l high).otherBank = s.otherBank ∧
    (∀ c', (s.setDriver l high).trunkCount c' = s.trunkCount c') ∧
    (∀ b' c', (s.setDriver l high).branchCount b' c' = s.branchCount b' c') ∧
    (∀ p', (s.setDriver l high).someRecord p' = s.someRecord p') ∧
    (∀ p', (s.setDriver l high).countRecords p' = s.countRecords p') ∧
    (∀ b', (s.setDriver l high).activeCount b' = s.activeCount b') ∧
    (∀ k', (s.setDriver l high).activeIn k' = s.activeIn k') ∧
    (∀ i', (s.setDriver l high).eligible i' = s.eligible i') ∧
    (s.setDriver l high).inReset = s.inReset :=
  ⟨fun _ => rfl, fun _ => rfl, fun _ => rfl, fun _ => rfl, fun _ => rfl,
   fun k => by cases k <;> rfl, rfl, rfl, fun _ => rfl, fun _ _ => rfl, fun _ => rfl,
   fun _ => rfl, fun _ => rfl, fun _ => rfl, fun _ => rfl, rfl⟩

/-! ### `placeAnswer` -/

@[simp] theorem placeAnswer_pinReset (s : State) (a : Telegram) :
    (s.placeAnswer a).pinReset = s.pinReset := rfl
@[simp] theorem placeAnswer_supplyReset (s : State) (a : Telegram) :
    (s.placeAnswer a).supplyReset = s.supplyReset := rfl
@[simp] theorem placeAnswer_ownAddress (s : State) (a : Telegram) :
    (s.placeAnswer a).ownAddress = s.ownAddress := rfl
@[simp] theorem placeAnswer_framers (s : State) (a : Telegram) :
    (s.placeAnswer a).framers = s.framers := rfl
@[simp] theorem placeAnswer_driverEnable (s : State) (a : Telegram) :
    (s.placeAnswer a).driverEnable = s.driverEnable := rfl
@[simp] theorem placeAnswer_holdTime (s : State) (a : Telegram) :
    (s.placeAnswer a).holdTime = s.holdTime := rfl
@[simp] theorem placeAnswer_lingerTime (s : State) (a : Telegram) :
    (s.placeAnswer a).lingerTime = s.lingerTime := rfl
@[simp] theorem placeAnswer_slots (s : State) (a : Telegram) :
    (s.placeAnswer a).slots = s.slots := rfl
@[simp] theorem placeAnswer_nextAdmission (s : State) (a : Telegram) :
    (s.placeAnswer a).nextAdmission = s.nextAdmission := rfl
@[simp] theorem placeAnswer_nextDelivery (s : State) (a : Telegram) :
    (s.placeAnswer a).nextDelivery = s.nextDelivery := rfl
@[simp] theorem placeAnswer_attn (s : State) (a : Telegram) : (s.placeAnswer a).attn = s.attn := rfl
@[simp] theorem placeAnswer_bankA (s : State) (a : Telegram) :
    (s.placeAnswer a).bankA = s.bankA := rfl
@[simp] theorem placeAnswer_bankB (s : State) (a : Telegram) :
    (s.placeAnswer a).bankB = s.bankB := rfl
@[simp] theorem placeAnswer_live (s : State) (a : Telegram) : (s.placeAnswer a).live = s.live := rfl
@[simp] theorem placeAnswer_otherRole (s : State) (a : Telegram) :
    (s.placeAnswer a).otherRole = s.otherRole := rfl
@[simp] theorem placeAnswer_generation (s : State) (a : Telegram) :
    (s.placeAnswer a).generation = s.generation := rfl
@[simp] theorem placeAnswer_drainCount (s : State) (a : Telegram) :
    (s.placeAnswer a).drainCount = s.drainCount := rfl
@[simp] theorem placeAnswer_lines (s : State) (a : Telegram) :
    (s.placeAnswer a).lines = s.lines := rfl
@[simp] theorem placeAnswer_pendingRestart (s : State) (a : Telegram) :
    (s.placeAnswer a).pendingRestart = s.pendingRestart := rfl
@[simp] theorem placeAnswer_trunkCounters (s : State) (a : Telegram) :
    (s.placeAnswer a).trunkCounters = s.trunkCounters := rfl
@[simp] theorem placeAnswer_branchCounters (s : State) (a : Telegram) :
    (s.placeAnswer a).branchCounters = s.branchCounters := rfl
@[simp] theorem placeAnswer_freeChoices (s : State) (a : Telegram) :
    (s.placeAnswer a).freeChoices = s.freeChoices := rfl
@[simp] theorem placeAnswer_pending (s : State) (a : Telegram) :
    (s.placeAnswer a).pending = s.pending := rfl

/-- The readings that `placeAnswer` leaves as they were. -/
@[simp] theorem placeAnswer_reads (s : State) (a : Telegram) :
    (∀ l', (s.placeAnswer a).framer l' = s.framer l') ∧
    (∀ b', (s.placeAnswer a).line b' = s.line b') ∧
    (∀ i', (s.placeAnswer a).record i' = s.record i') ∧
    (∀ i', (s.placeAnswer a).issue i' = s.issue i') ∧
    (∀ i', (s.placeAnswer a).ticket i' = s.ticket i') ∧
    (∀ k', (s.placeAnswer a).bank k' = s.bank k') ∧ (s.placeAnswer a).liveBank = s.liveBank ∧
    (s.placeAnswer a).otherBank = s.otherBank ∧
    (∀ c', (s.placeAnswer a).trunkCount c' = s.trunkCount c') ∧
    (∀ b' c', (s.placeAnswer a).branchCount b' c' = s.branchCount b' c') ∧
    (∀ p', (s.placeAnswer a).someRecord p' = s.someRecord p') ∧
    (∀ p', (s.placeAnswer a).countRecords p' = s.countRecords p') ∧
    (∀ b', (s.placeAnswer a).activeCount b' = s.activeCount b') ∧
    (∀ k', (s.placeAnswer a).activeIn k' = s.activeIn k') ∧
    (∀ i', (s.placeAnswer a).eligible i' = s.eligible i') ∧
    (s.placeAnswer a).inReset = s.inReset :=
  ⟨fun _ => rfl, fun _ => rfl, fun _ => rfl, fun _ => rfl, fun _ => rfl,
   fun k => by cases k <;> rfl, rfl, rfl, fun _ => rfl, fun _ _ => rfl, fun _ => rfl,
   fun _ => rfl, fun _ => rfl, fun _ => rfl, fun _ => rfl, rfl⟩

/-! ### `assertAttention` -/

@[simp] theorem assertAttention_pinReset (s : State) :
    s.assertAttention.pinReset = s.pinReset := rfl
@[simp] theorem assertAttention_supplyReset (s : State) :
    s.assertAttention.supplyReset = s.supplyReset := rfl
@[simp] theorem assertAttention_ownAddress (s : State) :
    s.assertAttention.ownAddress = s.ownAddress := rfl
@[simp] theorem assertAttention_framers (s : State) : s.assertAttention.framers = s.framers := rfl
@[simp] theorem assertAttention_driverEnable (s : State) :
    s.assertAttention.driverEnable = s.driverEnable := rfl
@[simp] theorem assertAttention_answer (s : State) : s.assertAttention.answer = s.answer := rfl
@[simp] theorem assertAttention_holdTime (s : State) :
    s.assertAttention.holdTime = s.holdTime := rfl
@[simp] theorem assertAttention_lingerTime (s : State) :
    s.assertAttention.lingerTime = s.lingerTime := rfl
@[simp] theorem assertAttention_slots (s : State) : s.assertAttention.slots = s.slots := rfl
@[simp] theorem assertAttention_nextAdmission (s : State) :
    s.assertAttention.nextAdmission = s.nextAdmission := rfl
@[simp] theorem assertAttention_nextDelivery (s : State) :
    s.assertAttention.nextDelivery = s.nextDelivery := rfl
@[simp] theorem assertAttention_bankA (s : State) : s.assertAttention.bankA = s.bankA := rfl
@[simp] theorem assertAttention_bankB (s : State) : s.assertAttention.bankB = s.bankB := rfl
@[simp] theorem assertAttention_live (s : State) : s.assertAttention.live = s.live := rfl
@[simp] theorem assertAttention_otherRole (s : State) :
    s.assertAttention.otherRole = s.otherRole := rfl
@[simp] theorem assertAttention_generation (s : State) :
    s.assertAttention.generation = s.generation := rfl
@[simp] theorem assertAttention_drainCount (s : State) :
    s.assertAttention.drainCount = s.drainCount := rfl
@[simp] theorem assertAttention_lines (s : State) : s.assertAttention.lines = s.lines := rfl
@[simp] theorem assertAttention_pendingRestart (s : State) :
    s.assertAttention.pendingRestart = s.pendingRestart := rfl
@[simp] theorem assertAttention_trunkCounters (s : State) :
    s.assertAttention.trunkCounters = s.trunkCounters := rfl
@[simp] theorem assertAttention_branchCounters (s : State) :
    s.assertAttention.branchCounters = s.branchCounters := rfl
@[simp] theorem assertAttention_freeChoices (s : State) :
    s.assertAttention.freeChoices = s.freeChoices := rfl
@[simp] theorem assertAttention_pending (s : State) : s.assertAttention.pending = s.pending := rfl

/-- The readings that `assertAttention` leaves as they were. -/
@[simp] theorem assertAttention_reads (s : State) :
    (∀ l', s.assertAttention.framer l' = s.framer l') ∧
    (∀ b', s.assertAttention.line b' = s.line b') ∧
    (∀ i', s.assertAttention.record i' = s.record i') ∧
    (∀ i', s.assertAttention.issue i' = s.issue i') ∧
    (∀ i', s.assertAttention.ticket i' = s.ticket i') ∧
    (∀ k', s.assertAttention.bank k' = s.bank k') ∧ s.assertAttention.liveBank = s.liveBank ∧
    s.assertAttention.otherBank = s.otherBank ∧
    (∀ c', s.assertAttention.trunkCount c' = s.trunkCount c') ∧
    (∀ b' c', s.assertAttention.branchCount b' c' = s.branchCount b' c') ∧
    (∀ p', s.assertAttention.someRecord p' = s.someRecord p') ∧
    (∀ p', s.assertAttention.countRecords p' = s.countRecords p') ∧
    (∀ b', s.assertAttention.activeCount b' = s.activeCount b') ∧
    (∀ k', s.assertAttention.activeIn k' = s.activeIn k') ∧
    (∀ i', s.assertAttention.eligible i' = s.eligible i') ∧
    s.assertAttention.inReset = s.inReset :=
  ⟨fun _ => rfl, fun _ => rfl, fun _ => rfl, fun _ => rfl, fun _ => rfl,
   fun k => by cases k <;> rfl, rfl, rfl, fun _ => rfl, fun _ _ => rfl, fun _ => rfl,
   fun _ => rfl, fun _ => rfl, fun _ => rfl, fun _ => rfl, rfl⟩

/-! ### `countTrunk` -/

@[simp] theorem countTrunk_pinReset (s : State) (c : TrunkCounter) :
    (s.countTrunk c).pinReset = s.pinReset := rfl
@[simp] theorem countTrunk_supplyReset (s : State) (c : TrunkCounter) :
    (s.countTrunk c).supplyReset = s.supplyReset := rfl
@[simp] theorem countTrunk_ownAddress (s : State) (c : TrunkCounter) :
    (s.countTrunk c).ownAddress = s.ownAddress := rfl
@[simp] theorem countTrunk_framers (s : State) (c : TrunkCounter) :
    (s.countTrunk c).framers = s.framers := rfl
@[simp] theorem countTrunk_driverEnable (s : State) (c : TrunkCounter) :
    (s.countTrunk c).driverEnable = s.driverEnable := rfl
@[simp] theorem countTrunk_answer (s : State) (c : TrunkCounter) :
    (s.countTrunk c).answer = s.answer := rfl
@[simp] theorem countTrunk_holdTime (s : State) (c : TrunkCounter) :
    (s.countTrunk c).holdTime = s.holdTime := rfl
@[simp] theorem countTrunk_lingerTime (s : State) (c : TrunkCounter) :
    (s.countTrunk c).lingerTime = s.lingerTime := rfl
@[simp] theorem countTrunk_slots (s : State) (c : TrunkCounter) :
    (s.countTrunk c).slots = s.slots := rfl
@[simp] theorem countTrunk_nextAdmission (s : State) (c : TrunkCounter) :
    (s.countTrunk c).nextAdmission = s.nextAdmission := rfl
@[simp] theorem countTrunk_nextDelivery (s : State) (c : TrunkCounter) :
    (s.countTrunk c).nextDelivery = s.nextDelivery := rfl
@[simp] theorem countTrunk_attn (s : State) (c : TrunkCounter) :
    (s.countTrunk c).attn = s.attn := rfl
@[simp] theorem countTrunk_bankA (s : State) (c : TrunkCounter) :
    (s.countTrunk c).bankA = s.bankA := rfl
@[simp] theorem countTrunk_bankB (s : State) (c : TrunkCounter) :
    (s.countTrunk c).bankB = s.bankB := rfl
@[simp] theorem countTrunk_live (s : State) (c : TrunkCounter) :
    (s.countTrunk c).live = s.live := rfl
@[simp] theorem countTrunk_otherRole (s : State) (c : TrunkCounter) :
    (s.countTrunk c).otherRole = s.otherRole := rfl
@[simp] theorem countTrunk_generation (s : State) (c : TrunkCounter) :
    (s.countTrunk c).generation = s.generation := rfl
@[simp] theorem countTrunk_drainCount (s : State) (c : TrunkCounter) :
    (s.countTrunk c).drainCount = s.drainCount := rfl
@[simp] theorem countTrunk_lines (s : State) (c : TrunkCounter) :
    (s.countTrunk c).lines = s.lines := rfl
@[simp] theorem countTrunk_pendingRestart (s : State) (c : TrunkCounter) :
    (s.countTrunk c).pendingRestart = s.pendingRestart := rfl
@[simp] theorem countTrunk_branchCounters (s : State) (c : TrunkCounter) :
    (s.countTrunk c).branchCounters = s.branchCounters := rfl
@[simp] theorem countTrunk_freeChoices (s : State) (c : TrunkCounter) :
    (s.countTrunk c).freeChoices = s.freeChoices := rfl
@[simp] theorem countTrunk_pending (s : State) (c : TrunkCounter) :
    (s.countTrunk c).pending = s.pending := rfl

/-- The readings that `countTrunk` leaves as they were. -/
@[simp] theorem countTrunk_reads (s : State) (c : TrunkCounter) :
    (∀ l', (s.countTrunk c).framer l' = s.framer l') ∧
    (∀ b', (s.countTrunk c).line b' = s.line b') ∧
    (∀ i', (s.countTrunk c).record i' = s.record i') ∧
    (∀ i', (s.countTrunk c).issue i' = s.issue i') ∧
    (∀ i', (s.countTrunk c).ticket i' = s.ticket i') ∧
    (∀ k', (s.countTrunk c).bank k' = s.bank k') ∧ (s.countTrunk c).liveBank = s.liveBank ∧
    (s.countTrunk c).otherBank = s.otherBank ∧
    (∀ b' c', (s.countTrunk c).branchCount b' c' = s.branchCount b' c') ∧
    (∀ p', (s.countTrunk c).someRecord p' = s.someRecord p') ∧
    (∀ p', (s.countTrunk c).countRecords p' = s.countRecords p') ∧
    (∀ b', (s.countTrunk c).activeCount b' = s.activeCount b') ∧
    (∀ k', (s.countTrunk c).activeIn k' = s.activeIn k') ∧
    (∀ i', (s.countTrunk c).eligible i' = s.eligible i') ∧
    (s.countTrunk c).inReset = s.inReset :=
  ⟨fun _ => rfl, fun _ => rfl, fun _ => rfl, fun _ => rfl, fun _ => rfl,
   fun k => by cases k <;> rfl, rfl, rfl, fun _ _ => rfl, fun _ => rfl, fun _ => rfl,
   fun _ => rfl, fun _ => rfl, fun _ => rfl, rfl⟩

/-! ### `countBranch` -/

@[simp] theorem countBranch_pinReset (s : State) (b : Branch) (c : BranchCounter) :
    (s.countBranch b c).pinReset = s.pinReset := rfl
@[simp] theorem countBranch_supplyReset (s : State) (b : Branch) (c : BranchCounter) :
    (s.countBranch b c).supplyReset = s.supplyReset := rfl
@[simp] theorem countBranch_ownAddress (s : State) (b : Branch) (c : BranchCounter) :
    (s.countBranch b c).ownAddress = s.ownAddress := rfl
@[simp] theorem countBranch_framers (s : State) (b : Branch) (c : BranchCounter) :
    (s.countBranch b c).framers = s.framers := rfl
@[simp] theorem countBranch_driverEnable (s : State) (b : Branch) (c : BranchCounter) :
    (s.countBranch b c).driverEnable = s.driverEnable := rfl
@[simp] theorem countBranch_answer (s : State) (b : Branch) (c : BranchCounter) :
    (s.countBranch b c).answer = s.answer := rfl
@[simp] theorem countBranch_holdTime (s : State) (b : Branch) (c : BranchCounter) :
    (s.countBranch b c).holdTime = s.holdTime := rfl
@[simp] theorem countBranch_lingerTime (s : State) (b : Branch) (c : BranchCounter) :
    (s.countBranch b c).lingerTime = s.lingerTime := rfl
@[simp] theorem countBranch_slots (s : State) (b : Branch) (c : BranchCounter) :
    (s.countBranch b c).slots = s.slots := rfl
@[simp] theorem countBranch_nextAdmission (s : State) (b : Branch) (c : BranchCounter) :
    (s.countBranch b c).nextAdmission = s.nextAdmission := rfl
@[simp] theorem countBranch_nextDelivery (s : State) (b : Branch) (c : BranchCounter) :
    (s.countBranch b c).nextDelivery = s.nextDelivery := rfl
@[simp] theorem countBranch_attn (s : State) (b : Branch) (c : BranchCounter) :
    (s.countBranch b c).attn = s.attn := rfl
@[simp] theorem countBranch_bankA (s : State) (b : Branch) (c : BranchCounter) :
    (s.countBranch b c).bankA = s.bankA := rfl
@[simp] theorem countBranch_bankB (s : State) (b : Branch) (c : BranchCounter) :
    (s.countBranch b c).bankB = s.bankB := rfl
@[simp] theorem countBranch_live (s : State) (b : Branch) (c : BranchCounter) :
    (s.countBranch b c).live = s.live := rfl
@[simp] theorem countBranch_otherRole (s : State) (b : Branch) (c : BranchCounter) :
    (s.countBranch b c).otherRole = s.otherRole := rfl
@[simp] theorem countBranch_generation (s : State) (b : Branch) (c : BranchCounter) :
    (s.countBranch b c).generation = s.generation := rfl
@[simp] theorem countBranch_drainCount (s : State) (b : Branch) (c : BranchCounter) :
    (s.countBranch b c).drainCount = s.drainCount := rfl
@[simp] theorem countBranch_lines (s : State) (b : Branch) (c : BranchCounter) :
    (s.countBranch b c).lines = s.lines := rfl
@[simp] theorem countBranch_pendingRestart (s : State) (b : Branch) (c : BranchCounter) :
    (s.countBranch b c).pendingRestart = s.pendingRestart := rfl
@[simp] theorem countBranch_trunkCounters (s : State) (b : Branch) (c : BranchCounter) :
    (s.countBranch b c).trunkCounters = s.trunkCounters := rfl
@[simp] theorem countBranch_freeChoices (s : State) (b : Branch) (c : BranchCounter) :
    (s.countBranch b c).freeChoices = s.freeChoices := rfl
@[simp] theorem countBranch_pending (s : State) (b : Branch) (c : BranchCounter) :
    (s.countBranch b c).pending = s.pending := rfl

/-- The readings that `countBranch` leaves as they were. -/
@[simp] theorem countBranch_reads (s : State) (b : Branch) (c : BranchCounter) :
    (∀ l', (s.countBranch b c).framer l' = s.framer l') ∧
    (∀ b', (s.countBranch b c).line b' = s.line b') ∧
    (∀ i', (s.countBranch b c).record i' = s.record i') ∧
    (∀ i', (s.countBranch b c).issue i' = s.issue i') ∧
    (∀ i', (s.countBranch b c).ticket i' = s.ticket i') ∧
    (∀ k', (s.countBranch b c).bank k' = s.bank k') ∧ (s.countBranch b c).liveBank = s.liveBank ∧
    (s.countBranch b c).otherBank = s.otherBank ∧
    (∀ c', (s.countBranch b c).trunkCount c' = s.trunkCount c') ∧
    (∀ p', (s.countBranch b c).someRecord p' = s.someRecord p') ∧
    (∀ p', (s.countBranch b c).countRecords p' = s.countRecords p') ∧
    (∀ b', (s.countBranch b c).activeCount b' = s.activeCount b') ∧
    (∀ k', (s.countBranch b c).activeIn k' = s.activeIn k') ∧
    (∀ i', (s.countBranch b c).eligible i' = s.eligible i') ∧
    (s.countBranch b c).inReset = s.inReset :=
  ⟨fun _ => rfl, fun _ => rfl, fun _ => rfl, fun _ => rfl, fun _ => rfl,
   fun k => by cases k <;> rfl, rfl, rfl, fun _ => rfl, fun _ => rfl, fun _ => rfl, fun _ => rfl,
   fun _ => rfl, fun _ => rfl, rfl⟩

/-! ### `settle` -/

@[simp] theorem settle_pinReset (s : State) (b : Branch) : (s.settle b).pinReset = s.pinReset := rfl
@[simp] theorem settle_supplyReset (s : State) (b : Branch) :
    (s.settle b).supplyReset = s.supplyReset := rfl
@[simp] theorem settle_ownAddress (s : State) (b : Branch) :
    (s.settle b).ownAddress = s.ownAddress := rfl
@[simp] theorem settle_framers (s : State) (b : Branch) : (s.settle b).framers = s.framers := rfl
@[simp] theorem settle_driverEnable (s : State) (b : Branch) :
    (s.settle b).driverEnable = s.driverEnable := rfl
@[simp] theorem settle_answer (s : State) (b : Branch) : (s.settle b).answer = s.answer := rfl
@[simp] theorem settle_holdTime (s : State) (b : Branch) : (s.settle b).holdTime = s.holdTime := rfl
@[simp] theorem settle_lingerTime (s : State) (b : Branch) :
    (s.settle b).lingerTime = s.lingerTime := rfl
@[simp] theorem settle_slots (s : State) (b : Branch) : (s.settle b).slots = s.slots := rfl
@[simp] theorem settle_nextAdmission (s : State) (b : Branch) :
    (s.settle b).nextAdmission = s.nextAdmission := rfl
@[simp] theorem settle_nextDelivery (s : State) (b : Branch) :
    (s.settle b).nextDelivery = s.nextDelivery := rfl
@[simp] theorem settle_attn (s : State) (b : Branch) : (s.settle b).attn = s.attn := rfl
@[simp] theorem settle_bankA (s : State) (b : Branch) : (s.settle b).bankA = s.bankA := rfl
@[simp] theorem settle_bankB (s : State) (b : Branch) : (s.settle b).bankB = s.bankB := rfl
@[simp] theorem settle_live (s : State) (b : Branch) : (s.settle b).live = s.live := rfl
@[simp] theorem settle_otherRole (s : State) (b : Branch) :
    (s.settle b).otherRole = s.otherRole := rfl
@[simp] theorem settle_generation (s : State) (b : Branch) :
    (s.settle b).generation = s.generation := rfl
@[simp] theorem settle_drainCount (s : State) (b : Branch) :
    (s.settle b).drainCount = s.drainCount := rfl
@[simp] theorem settle_pendingRestart (s : State) (b : Branch) :
    (s.settle b).pendingRestart = s.pendingRestart := rfl
@[simp] theorem settle_trunkCounters (s : State) (b : Branch) :
    (s.settle b).trunkCounters = s.trunkCounters := rfl
@[simp] theorem settle_branchCounters (s : State) (b : Branch) :
    (s.settle b).branchCounters = s.branchCounters := rfl
@[simp] theorem settle_freeChoices (s : State) (b : Branch) :
    (s.settle b).freeChoices = s.freeChoices := rfl
@[simp] theorem settle_pending (s : State) (b : Branch) : (s.settle b).pending = s.pending := rfl

/-- The readings that `settle` leaves as they were. -/
@[simp] theorem settle_reads (s : State) (b : Branch) :
    (∀ l', (s.settle b).framer l' = s.framer l') ∧ (∀ i', (s.settle b).record i' = s.record i') ∧
    (∀ i', (s.settle b).issue i' = s.issue i') ∧ (∀ i', (s.settle b).ticket i' = s.ticket i') ∧
    (∀ k', (s.settle b).bank k' = s.bank k') ∧ (s.settle b).liveBank = s.liveBank ∧
    (s.settle b).otherBank = s.otherBank ∧ (∀ c', (s.settle b).trunkCount c' = s.trunkCount c') ∧
    (∀ b' c', (s.settle b).branchCount b' c' = s.branchCount b' c') ∧
    (∀ p', (s.settle b).someRecord p' = s.someRecord p') ∧
    (∀ p', (s.settle b).countRecords p' = s.countRecords p') ∧
    (∀ b', (s.settle b).activeCount b' = s.activeCount b') ∧
    (∀ k', (s.settle b).activeIn k' = s.activeIn k') ∧
    (∀ i', (s.settle b).eligible i' = s.eligible i') ∧ (s.settle b).inReset = s.inReset :=
  ⟨fun _ => rfl, fun _ => rfl, fun _ => rfl, fun _ => rfl, fun k => by cases k <;> rfl, rfl, rfl,
   fun _ => rfl, fun _ _ => rfl, fun _ => rfl, fun _ => rfl, fun _ => rfl, fun _ => rfl,
   fun _ => rfl, rfl⟩

/-! ### `dequeue` -/

@[simp] theorem dequeue_pinReset (s : State) (b : Branch) (i : SlotId) :
    (s.dequeue b i).pinReset = s.pinReset := rfl
@[simp] theorem dequeue_supplyReset (s : State) (b : Branch) (i : SlotId) :
    (s.dequeue b i).supplyReset = s.supplyReset := rfl
@[simp] theorem dequeue_ownAddress (s : State) (b : Branch) (i : SlotId) :
    (s.dequeue b i).ownAddress = s.ownAddress := rfl
@[simp] theorem dequeue_framers (s : State) (b : Branch) (i : SlotId) :
    (s.dequeue b i).framers = s.framers := rfl
@[simp] theorem dequeue_driverEnable (s : State) (b : Branch) (i : SlotId) :
    (s.dequeue b i).driverEnable = s.driverEnable := rfl
@[simp] theorem dequeue_answer (s : State) (b : Branch) (i : SlotId) :
    (s.dequeue b i).answer = s.answer := rfl
@[simp] theorem dequeue_holdTime (s : State) (b : Branch) (i : SlotId) :
    (s.dequeue b i).holdTime = s.holdTime := rfl
@[simp] theorem dequeue_lingerTime (s : State) (b : Branch) (i : SlotId) :
    (s.dequeue b i).lingerTime = s.lingerTime := rfl
@[simp] theorem dequeue_slots (s : State) (b : Branch) (i : SlotId) :
    (s.dequeue b i).slots = s.slots := rfl
@[simp] theorem dequeue_nextAdmission (s : State) (b : Branch) (i : SlotId) :
    (s.dequeue b i).nextAdmission = s.nextAdmission := rfl
@[simp] theorem dequeue_nextDelivery (s : State) (b : Branch) (i : SlotId) :
    (s.dequeue b i).nextDelivery = s.nextDelivery := rfl
@[simp] theorem dequeue_attn (s : State) (b : Branch) (i : SlotId) :
    (s.dequeue b i).attn = s.attn := rfl
@[simp] theorem dequeue_bankA (s : State) (b : Branch) (i : SlotId) :
    (s.dequeue b i).bankA = s.bankA := rfl
@[simp] theorem dequeue_bankB (s : State) (b : Branch) (i : SlotId) :
    (s.dequeue b i).bankB = s.bankB := rfl
@[simp] theorem dequeue_live (s : State) (b : Branch) (i : SlotId) :
    (s.dequeue b i).live = s.live := rfl
@[simp] theorem dequeue_otherRole (s : State) (b : Branch) (i : SlotId) :
    (s.dequeue b i).otherRole = s.otherRole := rfl
@[simp] theorem dequeue_generation (s : State) (b : Branch) (i : SlotId) :
    (s.dequeue b i).generation = s.generation := rfl
@[simp] theorem dequeue_drainCount (s : State) (b : Branch) (i : SlotId) :
    (s.dequeue b i).drainCount = s.drainCount := rfl
@[simp] theorem dequeue_pendingRestart (s : State) (b : Branch) (i : SlotId) :
    (s.dequeue b i).pendingRestart = s.pendingRestart := rfl
@[simp] theorem dequeue_trunkCounters (s : State) (b : Branch) (i : SlotId) :
    (s.dequeue b i).trunkCounters = s.trunkCounters := rfl
@[simp] theorem dequeue_branchCounters (s : State) (b : Branch) (i : SlotId) :
    (s.dequeue b i).branchCounters = s.branchCounters := rfl
@[simp] theorem dequeue_freeChoices (s : State) (b : Branch) (i : SlotId) :
    (s.dequeue b i).freeChoices = s.freeChoices := rfl
@[simp] theorem dequeue_pending (s : State) (b : Branch) (i : SlotId) :
    (s.dequeue b i).pending = s.pending := rfl

/-- The readings that `dequeue` leaves as they were. -/
@[simp] theorem dequeue_reads (s : State) (b : Branch) (i : SlotId) :
    (∀ l', (s.dequeue b i).framer l' = s.framer l') ∧
    (∀ i', (s.dequeue b i).record i' = s.record i') ∧
    (∀ i', (s.dequeue b i).issue i' = s.issue i') ∧
    (∀ i', (s.dequeue b i).ticket i' = s.ticket i') ∧
    (∀ k', (s.dequeue b i).bank k' = s.bank k') ∧ (s.dequeue b i).liveBank = s.liveBank ∧
    (s.dequeue b i).otherBank = s.otherBank ∧
    (∀ c', (s.dequeue b i).trunkCount c' = s.trunkCount c') ∧
    (∀ b' c', (s.dequeue b i).branchCount b' c' = s.branchCount b' c') ∧
    (∀ p', (s.dequeue b i).someRecord p' = s.someRecord p') ∧
    (∀ p', (s.dequeue b i).countRecords p' = s.countRecords p') ∧
    (∀ b', (s.dequeue b i).activeCount b' = s.activeCount b') ∧
    (∀ k', (s.dequeue b i).activeIn k' = s.activeIn k') ∧
    (∀ i', (s.dequeue b i).eligible i' = s.eligible i') ∧ (s.dequeue b i).inReset = s.inReset :=
  ⟨fun _ => rfl, fun _ => rfl, fun _ => rfl, fun _ => rfl, fun k => by cases k <;> rfl, rfl, rfl,
   fun _ => rfl, fun _ _ => rfl, fun _ => rfl, fun _ => rfl, fun _ => rfl, fun _ => rfl,
   fun _ => rfl, rfl⟩

/-! ### What the updates write -/

@[simp] theorem setMode_framer (s : State) (l l' : Line) (m : FramerMode) :
    (s.setMode l m).framer l' = if l' = l then { s.framer l with mode := m } else s.framer l' := by
  simp [State.framer, State.setMode]

@[simp] theorem setRate_framer (s : State) (l l' : Line) (r : RateCode) :
    (s.setRate l r).framer l' = if l' = l then { s.framer l with rate := r } else s.framer l' := by
  simp [State.framer, State.setRate]

@[simp] theorem setDriver_get (s : State) (l l' : Line) (high : Bool) :
    (s.setDriver l high).driverEnable.get l' = if l' = l then high else s.driverEnable.get l' := by
  simp [State.setDriver]

@[simp] theorem setLine_line (s : State) (b b' : Branch) (ln : BranchLine) :
    (s.setLine b ln).line b' = if b' = b then ln else s.line b' := by
  simp [State.line, State.setLine]

@[simp] theorem setLineState_line (s : State) (b b' : Branch) (st : LineState) :
    (s.setLineState b st).line b' = if b' = b then { s.line b with state := st } else s.line b' := by
  simp [State.line, State.setLineState, State.setLine]

@[simp] theorem settle_line (s : State) (b b' : Branch) :
    (s.settle b).line b' =
      if b' = b then { s.line b with state := .settling 4 } else s.line b' := by
  simp [State.settle]

@[simp] theorem dequeue_line (s : State) (b b' : Branch) (i : SlotId) :
    (s.dequeue b i).line b' =
      if b' = b then { s.line b with queue := (s.line b).queue.erase i } else s.line b' := by
  simp [State.dequeue]

@[simp] theorem setRecord_record (s : State) (i j : SlotId) (r : Option Record) :
    (s.setRecord i r).record j = if j = i then r else s.record j := by
  simp only [State.record, State.setRecord, get_set]; split <;> rfl

@[simp] theorem setRecord_issue (s : State) (i j : SlotId) (r : Option Record) :
    (s.setRecord i r).issue j = s.issue j := by
  simp only [State.issue, State.setRecord, get_set]; split <;> simp_all

@[simp] theorem setRecord_ticket (s : State) (i j : SlotId) (r : Option Record) :
    (s.setRecord i r).ticket j = s.ticket j := by simp [State.ticket]

@[simp] theorem setIssue_issue (s : State) (i j : SlotId) (n : BitVec 4) :
    (s.setIssue i n).issue j = if j = i then n else s.issue j := by
  simp only [State.issue, State.setIssue, get_set]; split <;> rfl

@[simp] theorem setIssue_record (s : State) (i j : SlotId) (n : BitVec 4) :
    (s.setIssue i n).record j = s.record j := by
  simp only [State.record, State.setIssue, get_set]; split <;> simp_all

@[simp] theorem placeAnswer_answer (s : State) (a : Telegram) :
    (s.placeAnswer a).answer = .turnaround a 2 := rfl

@[simp] theorem assertAttention_attn (s : State) : s.assertAttention.attn = true := rfl

theorem TrunkCounter.index_inj {c d : TrunkCounter} : c.index = d.index ↔ c = d := by
  cases c <;> cases d <;> simp [TrunkCounter.index]

theorem BranchCounter.index_inj {c d : BranchCounter} : c.index = d.index ↔ c = d := by
  cases c <;> cases d <;> simp [BranchCounter.index]

@[simp] theorem countTrunk_trunkCount (s : State) (c d : TrunkCounter) :
    (s.countTrunk c).trunkCount d =
      if d = c then countUp (s.trunkCount c) else s.trunkCount d := by
  simp [State.trunkCount, State.countTrunk, TrunkCounter.index_inj]

@[simp] theorem countBranch_get (s : State) (b b' : Branch) (c : BranchCounter) :
    (s.countBranch b c).branchCounters.get b' =
      if b' = b then
        (s.branchCounters.get b).set c.index (countUp (s.branchCount b c))
      else s.branchCounters.get b' := by
  simp [State.countBranch]

@[simp] theorem countBranch_branchCount (s : State) (b b' : Branch) (c d : BranchCounter) :
    (s.countBranch b c).branchCount b' d =
      if b' = b ∧ d = c then countUp (s.branchCount b c) else s.branchCount b' d := by
  simp only [State.branchCount, countBranch_get]
  by_cases hb : b' = b
  · subst hb; simp [BranchCounter.index_inj]
  · simp [hb]

/-! ### A part written with what it holds already -/

theorem setMode_self {s : State} {l : Line} {m : FramerMode} (h : (s.framer l).mode = m) :
    s.setMode l m = s := by
  subst h
  change ({ s with framers := s.framers.set l (s.framers.get l) } : State) = s
  rw [set_get_self]

theorem setRecord_self {s : State} {i : SlotId} {r : Option Record} (h : s.record i = r) :
    s.setRecord i r = s := by
  subst h
  change ({ s with slots := s.slots.set i (s.slots.get i) } : State) = s
  rw [set_get_self]

theorem setLine_self (s : State) (b : Branch) : s.setLine b (s.line b) = s := by
  change ({ s with lines := s.lines.set b (s.lines.get b) } : State) = s
  rw [set_get_self]

/-! ### The same part written twice -/

@[simp] theorem setLine_setLine (s : State) (b : Branch) (x y : BranchLine) :
    (s.setLine b x).setLine b y = s.setLine b y := by simp [State.setLine]

@[simp] theorem setMode_setMode (s : State) (l : Line) (m m' : FramerMode) :
    (s.setMode l m).setMode l m' = s.setMode l m' := by simp [State.setMode, State.framer]

@[simp] theorem setRecord_setRecord (s : State) (i : SlotId) (r q : Option Record) :
    (s.setRecord i r).setRecord i q = s.setRecord i q := by simp [State.setRecord]

/-! ### Banks -/

@[simp] theorem BankId.other_ne (k : BankId) : k.other ≠ k := by cases k <;> simp [BankId.other]

@[simp] theorem BankId.ne_other (k : BankId) : k ≠ k.other := by cases k <;> simp [BankId.other]

@[simp] theorem BankId.other_other (k : BankId) : k.other.other = k := by cases k <;> rfl

theorem BankId.ne_iff_eq_other {k l : BankId} : k ≠ l ↔ k = l.other := by
  cases k <;> cases l <;> simp [BankId.other]

@[simp] theorem setBank_bank (s : State) (k j : BankId) (c : Bank) :
    (s.setBank k c).bank j = if j = k then c else s.bank j := by
  cases k <;> cases j <;> simp [State.setBank, State.bank]

/-! ### The readings of the exchange table -/

theorem someRecord_iff (s : State) (p : Record → Bool) :
    s.someRecord p = true ↔ ∃ i r, s.record i = some r ∧ p r = true := by
  simp [State.someRecord, Option.any_eq_true]

theorem someRecord_false_iff (s : State) (p : Record → Bool) :
    s.someRecord p = false ↔ ∀ i r, s.record i = some r → p r = false := by
  simp [State.someRecord, Option.any_eq_false_iff_get]
  constructor
  · intro h i r hr
    have := h i (by simp [hr])
    simpa [hr] using this
  · intro h i hi
    obtain ⟨r, hr⟩ := Option.isSome_iff_exists.mp hi
    simpa [hr] using h i r hr

/-- The count of records after one slot changes: its old record goes out and its new one comes in. -/
theorem countRecords_setRecord (s : State) (p : Record → Bool) (i : SlotId) (r : Option Record) :
    (s.setRecord i r).countRecords p + (if (s.record i).any p then 1 else 0) =
      s.countRecords p + (if r.any p then 1 else 0) := by
  have key : ∀ l : List SlotId, l.Nodup →
      l.countP (fun j => ((s.setRecord i r).record j).any p) +
        (if i ∈ l ∧ (s.record i).any p = true then 1 else 0) =
      l.countP (fun j => (s.record j).any p) + (if i ∈ l ∧ r.any p = true then 1 else 0) := by
    intro l
    induction l with
    | nil => simp
    | cons a t ih =>
      intro hn
      have hn' := List.nodup_cons.mp hn
      have ih := ih hn'.2
      by_cases ha : a = i
      · subst ha
        simp only [List.countP_cons, setRecord_record, List.mem_cons, true_or, true_and, if_true]
        simp only [setRecord_record, hn'.1, false_and, if_false] at ih
        omega
      · simp only [List.countP_cons, List.mem_cons]
        have : ((s.setRecord i r).record a) = s.record a := by simp [ha]
        rw [this]
        have h1 : (i = a ∨ i ∈ t) ↔ i ∈ t := by
          constructor
          · rintro (h | h); exact absurd h.symm ha; exact h
          · exact Or.inr
        simp only [h1]
        omega
  have := key (List.finRange 16) (List.nodup_finRange 16)
  simpa [State.countRecords] using this

theorem countRecords_eq_zero (s : State) (p : Record → Bool) :
    s.countRecords p = 0 ↔ ∀ i r, s.record i = some r → p r = false := by
  rw [← someRecord_false_iff]
  simp [State.countRecords, State.someRecord, List.countP_eq_zero]

end Sys2Proof.Laws
end

