-- ==== Sys2Proof/Laws/Frames.lean ====
section
/-! SUPPORT. The frames of the shared operations of Machine/Ops.lean: for each, the fields of State and
the readings of its parts that it leaves as they were. A frame's parts are simp rules. -/

namespace Sys2Proof.Laws

open Sys2Proof.Machine

/-- What every step of a run keeps, the run keeps. -/
theorem foldl_keeps {ι γ : Type} (g : State → γ) {f : State → ι → State}
    (h : ∀ s i, g (f s i) = g s) (l : List ι) (s : State) : g (l.foldl f s) = g s := by
  induction l generalizing s with
  | nil => rfl
  | cons a t ih => simp [ih, h]

/-- What `countRxCheck` leaves as it was. -/
@[simp] theorem countRxCheck_frame (s : State) (l : Line) :
    (s.countRxCheck l).pinReset = s.pinReset ∧ (s.countRxCheck l).supplyReset = s.supplyReset ∧
    (s.countRxCheck l).ownAddress = s.ownAddress ∧ (s.countRxCheck l).framers = s.framers ∧
    (s.countRxCheck l).driverEnable = s.driverEnable ∧ (s.countRxCheck l).answer = s.answer ∧
    (s.countRxCheck l).holdTime = s.holdTime ∧ (s.countRxCheck l).lingerTime = s.lingerTime ∧
    (s.countRxCheck l).slots = s.slots ∧ (s.countRxCheck l).nextAdmission = s.nextAdmission ∧
    (s.countRxCheck l).nextDelivery = s.nextDelivery ∧ (s.countRxCheck l).attn = s.attn ∧
    (s.countRxCheck l).bankA = s.bankA ∧ (s.countRxCheck l).bankB = s.bankB ∧
    (s.countRxCheck l).live = s.live ∧ (s.countRxCheck l).otherRole = s.otherRole ∧
    (s.countRxCheck l).generation = s.generation ∧ (s.countRxCheck l).drainCount = s.drainCount ∧
    (s.countRxCheck l).lines = s.lines ∧ (s.countRxCheck l).pendingRestart = s.pendingRestart ∧
    (s.countRxCheck l).freeChoices = s.freeChoices ∧ (s.countRxCheck l).pending = s.pending := by
  simp only [State.countRxCheck]; split <;> simp

/-- The readings that `countRxCheck` leaves as they were. -/
@[simp] theorem countRxCheck_reads (s : State) (l : Line) :
    (∀ l', (s.countRxCheck l).framer l' = s.framer l') ∧
    (∀ b', (s.countRxCheck l).line b' = s.line b') ∧
    (∀ i', (s.countRxCheck l).record i' = s.record i') ∧
    (∀ i', (s.countRxCheck l).issue i' = s.issue i') ∧
    (∀ i', (s.countRxCheck l).ticket i' = s.ticket i') ∧
    (∀ k', (s.countRxCheck l).bank k' = s.bank k') ∧ (s.countRxCheck l).liveBank = s.liveBank ∧
    (s.countRxCheck l).otherBank = s.otherBank ∧
    (∀ p', (s.countRxCheck l).someRecord p' = s.someRecord p') ∧
    (∀ p', (s.countRxCheck l).countRecords p' = s.countRecords p') ∧
    (∀ b', (s.countRxCheck l).activeCount b' = s.activeCount b') ∧
    (∀ k', (s.countRxCheck l).activeIn k' = s.activeIn k') ∧
    (∀ i', (s.countRxCheck l).eligible i' = s.eligible i') ∧
    (s.countRxCheck l).inReset = s.inReset := by
  simp
    [State.framer, State.line, State.record, State.issue, State.ticket, State.liveBank,
     State.bank, State.otherBank, State.someRecord, State.countRecords, State.activeCount,
     State.activeIn, State.eligible, State.heldBack, State.inReset]

/-- What `countRxTorn` leaves as it was. -/
@[simp] theorem countRxTorn_frame (s : State) (l : Line) :
    (s.countRxTorn l).pinReset = s.pinReset ∧ (s.countRxTorn l).supplyReset = s.supplyReset ∧
    (s.countRxTorn l).ownAddress = s.ownAddress ∧ (s.countRxTorn l).framers = s.framers ∧
    (s.countRxTorn l).driverEnable = s.driverEnable ∧ (s.countRxTorn l).answer = s.answer ∧
    (s.countRxTorn l).holdTime = s.holdTime ∧ (s.countRxTorn l).lingerTime = s.lingerTime ∧
    (s.countRxTorn l).slots = s.slots ∧ (s.countRxTorn l).nextAdmission = s.nextAdmission ∧
    (s.countRxTorn l).nextDelivery = s.nextDelivery ∧ (s.countRxTorn l).attn = s.attn ∧
    (s.countRxTorn l).bankA = s.bankA ∧ (s.countRxTorn l).bankB = s.bankB ∧
    (s.countRxTorn l).live = s.live ∧ (s.countRxTorn l).otherRole = s.otherRole ∧
    (s.countRxTorn l).generation = s.generation ∧ (s.countRxTorn l).drainCount = s.drainCount ∧
    (s.countRxTorn l).lines = s.lines ∧ (s.countRxTorn l).pendingRestart = s.pendingRestart ∧
    (s.countRxTorn l).freeChoices = s.freeChoices ∧ (s.countRxTorn l).pending = s.pending := by
  simp only [State.countRxTorn]; split <;> simp

/-- The readings that `countRxTorn` leaves as they were. -/
@[simp] theorem countRxTorn_reads (s : State) (l : Line) :
    (∀ l', (s.countRxTorn l).framer l' = s.framer l') ∧
    (∀ b', (s.countRxTorn l).line b' = s.line b') ∧
    (∀ i', (s.countRxTorn l).record i' = s.record i') ∧
    (∀ i', (s.countRxTorn l).issue i' = s.issue i') ∧
    (∀ i', (s.countRxTorn l).ticket i' = s.ticket i') ∧
    (∀ k', (s.countRxTorn l).bank k' = s.bank k') ∧ (s.countRxTorn l).liveBank = s.liveBank ∧
    (s.countRxTorn l).otherBank = s.otherBank ∧
    (∀ p', (s.countRxTorn l).someRecord p' = s.someRecord p') ∧
    (∀ p', (s.countRxTorn l).countRecords p' = s.countRecords p') ∧
    (∀ b', (s.countRxTorn l).activeCount b' = s.activeCount b') ∧
    (∀ k', (s.countRxTorn l).activeIn k' = s.activeIn k') ∧
    (∀ i', (s.countRxTorn l).eligible i' = s.eligible i') ∧
    (s.countRxTorn l).inReset = s.inReset := by
  simp
    [State.framer, State.line, State.record, State.issue, State.ticket, State.liveBank,
     State.bank, State.otherBank, State.someRecord, State.countRecords, State.activeCount,
     State.activeIn, State.eligible, State.heldBack, State.inReset]

/-- What `countRxMalformed` leaves as it was. -/
@[simp] theorem countRxMalformed_frame (s : State) (l : Line) :
    (s.countRxMalformed l).pinReset = s.pinReset ∧
    (s.countRxMalformed l).supplyReset = s.supplyReset ∧
    (s.countRxMalformed l).ownAddress = s.ownAddress ∧
    (s.countRxMalformed l).framers = s.framers ∧
    (s.countRxMalformed l).driverEnable = s.driverEnable ∧
    (s.countRxMalformed l).answer = s.answer ∧ (s.countRxMalformed l).holdTime = s.holdTime ∧
    (s.countRxMalformed l).lingerTime = s.lingerTime ∧ (s.countRxMalformed l).slots = s.slots ∧
    (s.countRxMalformed l).nextAdmission = s.nextAdmission ∧
    (s.countRxMalformed l).nextDelivery = s.nextDelivery ∧ (s.countRxMalformed l).attn = s.attn ∧
    (s.countRxMalformed l).bankA = s.bankA ∧ (s.countRxMalformed l).bankB = s.bankB ∧
    (s.countRxMalformed l).live = s.live ∧ (s.countRxMalformed l).otherRole = s.otherRole ∧
    (s.countRxMalformed l).generation = s.generation ∧
    (s.countRxMalformed l).drainCount = s.drainCount ∧ (s.countRxMalformed l).lines = s.lines ∧
    (s.countRxMalformed l).pendingRestart = s.pendingRestart ∧
    (s.countRxMalformed l).freeChoices = s.freeChoices ∧
    (s.countRxMalformed l).pending = s.pending := by
  simp only [State.countRxMalformed]; split <;> simp

/-- The readings that `countRxMalformed` leaves as they were. -/
@[simp] theorem countRxMalformed_reads (s : State) (l : Line) :
    (∀ l', (s.countRxMalformed l).framer l' = s.framer l') ∧
    (∀ b', (s.countRxMalformed l).line b' = s.line b') ∧
    (∀ i', (s.countRxMalformed l).record i' = s.record i') ∧
    (∀ i', (s.countRxMalformed l).issue i' = s.issue i') ∧
    (∀ i', (s.countRxMalformed l).ticket i' = s.ticket i') ∧
    (∀ k', (s.countRxMalformed l).bank k' = s.bank k') ∧
    (s.countRxMalformed l).liveBank = s.liveBank ∧
    (s.countRxMalformed l).otherBank = s.otherBank ∧
    (∀ p', (s.countRxMalformed l).someRecord p' = s.someRecord p') ∧
    (∀ p', (s.countRxMalformed l).countRecords p' = s.countRecords p') ∧
    (∀ b', (s.countRxMalformed l).activeCount b' = s.activeCount b') ∧
    (∀ k', (s.countRxMalformed l).activeIn k' = s.activeIn k') ∧
    (∀ i', (s.countRxMalformed l).eligible i' = s.eligible i') ∧
    (s.countRxMalformed l).inReset = s.inReset := by
  simp
    [State.framer, State.line, State.record, State.issue, State.ticket, State.liveBank,
     State.bank, State.otherBank, State.someRecord, State.countRecords, State.activeCount,
     State.activeIn, State.eligible, State.heldBack, State.inReset]

@[simp] theorem countRxCheck_lineOf (s : State) (b : Branch) :
    s.countRxCheck (lineOf b) = s.countBranch b .rxCheck := by simp [State.countRxCheck]

@[simp] theorem countRxTorn_lineOf (s : State) (b : Branch) :
    s.countRxTorn (lineOf b) = s.countBranch b .rxTorn := by simp [State.countRxTorn]

@[simp] theorem countRxMalformed_lineOf (s : State) (b : Branch) :
    s.countRxMalformed (lineOf b) = s.countBranch b .rxMalformed := by
  simp [State.countRxMalformed]

@[simp] theorem countRxCheck_zero (s : State) : s.countRxCheck 0 = s.countTrunk .rxCheck := rfl

@[simp] theorem countRxTorn_zero (s : State) : s.countRxTorn 0 = s.countTrunk .rxTorn := rfl

@[simp] theorem countRxMalformed_zero (s : State) :
    s.countRxMalformed 0 = s.countTrunk .rxMalformed := rfl

/-- What `setBank` leaves as it was. -/
@[simp] theorem setBank_frame (s : State) (k : BankId) (c : Bank) :
    (s.setBank k c).pinReset = s.pinReset ∧ (s.setBank k c).supplyReset = s.supplyReset ∧
    (s.setBank k c).ownAddress = s.ownAddress ∧ (s.setBank k c).framers = s.framers ∧
    (s.setBank k c).driverEnable = s.driverEnable ∧ (s.setBank k c).answer = s.answer ∧
    (s.setBank k c).holdTime = s.holdTime ∧ (s.setBank k c).lingerTime = s.lingerTime ∧
    (s.setBank k c).slots = s.slots ∧ (s.setBank k c).nextAdmission = s.nextAdmission ∧
    (s.setBank k c).nextDelivery = s.nextDelivery ∧ (s.setBank k c).attn = s.attn ∧
    (s.setBank k c).live = s.live ∧ (s.setBank k c).otherRole = s.otherRole ∧
    (s.setBank k c).generation = s.generation ∧ (s.setBank k c).drainCount = s.drainCount ∧
    (s.setBank k c).lines = s.lines ∧ (s.setBank k c).pendingRestart = s.pendingRestart ∧
    (s.setBank k c).trunkCounters = s.trunkCounters ∧
    (s.setBank k c).branchCounters = s.branchCounters ∧
    (s.setBank k c).freeChoices = s.freeChoices ∧ (s.setBank k c).pending = s.pending := by
  cases k <;> simp [State.setBank]

/-- The readings that `setBank` leaves as they were. -/
@[simp] theorem setBank_reads (s : State) (k : BankId) (c : Bank) :
    (∀ l', (s.setBank k c).framer l' = s.framer l') ∧
    (∀ b', (s.setBank k c).line b' = s.line b') ∧
    (∀ i', (s.setBank k c).record i' = s.record i') ∧
    (∀ i', (s.setBank k c).issue i' = s.issue i') ∧
    (∀ i', (s.setBank k c).ticket i' = s.ticket i') ∧
    (∀ c', (s.setBank k c).trunkCount c' = s.trunkCount c') ∧
    (∀ b' c', (s.setBank k c).branchCount b' c' = s.branchCount b' c') ∧
    (∀ p', (s.setBank k c).someRecord p' = s.someRecord p') ∧
    (∀ p', (s.setBank k c).countRecords p' = s.countRecords p') ∧
    (∀ b', (s.setBank k c).activeCount b' = s.activeCount b') ∧
    (∀ k', (s.setBank k c).activeIn k' = s.activeIn k') ∧
    (∀ i', (s.setBank k c).eligible i' = s.eligible i') ∧ (s.setBank k c).inReset = s.inReset := by
  simp
    [State.framer, State.line, State.record, State.issue, State.ticket, State.trunkCount,
     State.branchCount, State.someRecord, State.countRecords, State.activeCount,
     State.activeIn, State.eligible, State.heldBack, State.inReset]

/-- What `releaseAttention` leaves as it was. -/
@[simp] theorem releaseAttention_frame (s : State) :
    s.releaseAttention.pinReset = s.pinReset ∧ s.releaseAttention.supplyReset = s.supplyReset ∧
    s.releaseAttention.ownAddress = s.ownAddress ∧ s.releaseAttention.framers = s.framers ∧
    s.releaseAttention.driverEnable = s.driverEnable ∧ s.releaseAttention.answer = s.answer ∧
    s.releaseAttention.holdTime = s.holdTime ∧ s.releaseAttention.lingerTime = s.lingerTime ∧
    s.releaseAttention.slots = s.slots ∧ s.releaseAttention.nextAdmission = s.nextAdmission ∧
    s.releaseAttention.nextDelivery = s.nextDelivery ∧ s.releaseAttention.bankA = s.bankA ∧
    s.releaseAttention.bankB = s.bankB ∧ s.releaseAttention.live = s.live ∧
    s.releaseAttention.otherRole = s.otherRole ∧ s.releaseAttention.generation = s.generation ∧
    s.releaseAttention.drainCount = s.drainCount ∧ s.releaseAttention.lines = s.lines ∧
    s.releaseAttention.pendingRestart = s.pendingRestart ∧
    s.releaseAttention.trunkCounters = s.trunkCounters ∧
    s.releaseAttention.branchCounters = s.branchCounters ∧
    s.releaseAttention.freeChoices = s.freeChoices ∧ s.releaseAttention.pending = s.pending := by
  simp only [State.releaseAttention]; split <;> simp

/-- The readings that `releaseAttention` leaves as they were. -/
@[simp] theorem releaseAttention_reads (s : State) :
    (∀ l', s.releaseAttention.framer l' = s.framer l') ∧
    (∀ b', s.releaseAttention.line b' = s.line b') ∧
    (∀ i', s.releaseAttention.record i' = s.record i') ∧
    (∀ i', s.releaseAttention.issue i' = s.issue i') ∧
    (∀ i', s.releaseAttention.ticket i' = s.ticket i') ∧
    (∀ k', s.releaseAttention.bank k' = s.bank k') ∧ s.releaseAttention.liveBank = s.liveBank ∧
    s.releaseAttention.otherBank = s.otherBank ∧
    (∀ c', s.releaseAttention.trunkCount c' = s.trunkCount c') ∧
    (∀ b' c', s.releaseAttention.branchCount b' c' = s.branchCount b' c') ∧
    (∀ p', s.releaseAttention.someRecord p' = s.someRecord p') ∧
    (∀ p', s.releaseAttention.countRecords p' = s.countRecords p') ∧
    (∀ b', s.releaseAttention.activeCount b' = s.activeCount b') ∧
    (∀ k', s.releaseAttention.activeIn k' = s.activeIn k') ∧
    (∀ i', s.releaseAttention.eligible i' = s.eligible i') ∧
    s.releaseAttention.inReset = s.inReset := by
  simp
    [State.framer, State.line, State.record, State.issue, State.ticket, State.liveBank,
     State.bank, State.otherBank, State.trunkCount, State.branchCount, State.someRecord,
     State.countRecords, State.activeCount, State.activeIn, State.eligible, State.heldBack,
     State.inReset]

/-- What `transmit` leaves as it was. -/
@[simp] theorem transmit_frame (s : State) (l : Line) (t : Telegram) :
    (s.transmit l t).pinReset = s.pinReset ∧ (s.transmit l t).supplyReset = s.supplyReset ∧
    (s.transmit l t).ownAddress = s.ownAddress ∧ (s.transmit l t).answer = s.answer ∧
    (s.transmit l t).holdTime = s.holdTime ∧ (s.transmit l t).lingerTime = s.lingerTime ∧
    (s.transmit l t).slots = s.slots ∧ (s.transmit l t).nextAdmission = s.nextAdmission ∧
    (s.transmit l t).nextDelivery = s.nextDelivery ∧ (s.transmit l t).attn = s.attn ∧
    (s.transmit l t).bankA = s.bankA ∧ (s.transmit l t).bankB = s.bankB ∧
    (s.transmit l t).live = s.live ∧ (s.transmit l t).otherRole = s.otherRole ∧
    (s.transmit l t).generation = s.generation ∧ (s.transmit l t).drainCount = s.drainCount ∧
    (s.transmit l t).lines = s.lines ∧ (s.transmit l t).pendingRestart = s.pendingRestart ∧
    (s.transmit l t).freeChoices = s.freeChoices ∧ (s.transmit l t).pending = s.pending := by
  simp only [State.transmit]; split <;> simp

/-- The readings that `transmit` leaves as they were. -/
@[simp] theorem transmit_reads (s : State) (l : Line) (t : Telegram) :
    (∀ b', (s.transmit l t).line b' = s.line b') ∧
    (∀ i', (s.transmit l t).record i' = s.record i') ∧
    (∀ i', (s.transmit l t).issue i' = s.issue i') ∧
    (∀ i', (s.transmit l t).ticket i' = s.ticket i') ∧
    (∀ k', (s.transmit l t).bank k' = s.bank k') ∧ (s.transmit l t).liveBank = s.liveBank ∧
    (s.transmit l t).otherBank = s.otherBank ∧
    (∀ p', (s.transmit l t).someRecord p' = s.someRecord p') ∧
    (∀ p', (s.transmit l t).countRecords p' = s.countRecords p') ∧
    (∀ b', (s.transmit l t).activeCount b' = s.activeCount b') ∧
    (∀ k', (s.transmit l t).activeIn k' = s.activeIn k') ∧
    (∀ i', (s.transmit l t).eligible i' = s.eligible i') ∧
    (s.transmit l t).inReset = s.inReset := by
  simp
    [State.line, State.record, State.issue, State.ticket, State.liveBank, State.bank,
     State.otherBank, State.someRecord, State.countRecords, State.activeCount, State.activeIn,
     State.eligible, State.heldBack, State.inReset]

/-- A branch transmission leaves the counters of the trunk. -/
@[simp] theorem transmit_lineOf_trunkCounters (s : State) (b : Branch) (t : Telegram) :
    (s.transmit (lineOf b) t).trunkCounters = s.trunkCounters := by
  simp only [State.transmit]; split <;> simp

/-- The answer's transmission leaves the counters of the branches. -/
@[simp] theorem transmit_zero_branchCounters (s : State) (t : Telegram) :
    (s.transmit 0 t).branchCounters = s.branchCounters := by
  simp only [State.transmit]; split <;> simp

/-- What `endTransmission` leaves as it was. -/
@[simp] theorem endTransmission_frame (s : State) (l : Line) :
    (s.endTransmission l).pinReset = s.pinReset ∧
    (s.endTransmission l).supplyReset = s.supplyReset ∧
    (s.endTransmission l).ownAddress = s.ownAddress ∧ (s.endTransmission l).answer = s.answer ∧
    (s.endTransmission l).holdTime = s.holdTime ∧
    (s.endTransmission l).lingerTime = s.lingerTime ∧ (s.endTransmission l).slots = s.slots ∧
    (s.endTransmission l).nextAdmission = s.nextAdmission ∧
    (s.endTransmission l).nextDelivery = s.nextDelivery ∧ (s.endTransmission l).attn = s.attn ∧
    (s.endTransmission l).bankA = s.bankA ∧ (s.endTransmission l).bankB = s.bankB ∧
    (s.endTransmission l).live = s.live ∧ (s.endTransmission l).otherRole = s.otherRole ∧
    (s.endTransmission l).generation = s.generation ∧
    (s.endTransmission l).drainCount = s.drainCount ∧ (s.endTransmission l).lines = s.lines ∧
    (s.endTransmission l).pendingRestart = s.pendingRestart ∧
    (s.endTransmission l).trunkCounters = s.trunkCounters ∧
    (s.endTransmission l).branchCounters = s.branchCounters ∧
    (s.endTransmission l).freeChoices = s.freeChoices ∧
    (s.endTransmission l).pending = s.pending := by
  simp only [State.endTransmission]; split <;> simp

/-- The readings that `endTransmission` leaves as they were. -/
@[simp] theorem endTransmission_reads (s : State) (l : Line) :
    (∀ b', (s.endTransmission l).line b' = s.line b') ∧
    (∀ i', (s.endTransmission l).record i' = s.record i') ∧
    (∀ i', (s.endTransmission l).issue i' = s.issue i') ∧
    (∀ i', (s.endTransmission l).ticket i' = s.ticket i') ∧
    (∀ k', (s.endTransmission l).bank k' = s.bank k') ∧
    (s.endTransmission l).liveBank = s.liveBank ∧ (s.endTransmission l).otherBank = s.otherBank ∧
    (∀ c', (s.endTransmission l).trunkCount c' = s.trunkCount c') ∧
    (∀ b' c', (s.endTransmission l).branchCount b' c' = s.branchCount b' c') ∧
    (∀ p', (s.endTransmission l).someRecord p' = s.someRecord p') ∧
    (∀ p', (s.endTransmission l).countRecords p' = s.countRecords p') ∧
    (∀ b', (s.endTransmission l).activeCount b' = s.activeCount b') ∧
    (∀ k', (s.endTransmission l).activeIn k' = s.activeIn k') ∧
    (∀ i', (s.endTransmission l).eligible i' = s.eligible i') ∧
    (s.endTransmission l).inReset = s.inReset := by
  simp
    [State.line, State.record, State.issue, State.ticket, State.liveBank, State.bank,
     State.otherBank, State.trunkCount, State.branchCount, State.someRecord,
     State.countRecords, State.activeCount, State.activeIn, State.eligible, State.heldBack,
     State.inReset]

/-- What `abandonReception` leaves as it was. -/
@[simp] theorem abandonReception_frame (s : State) (l : Line) :
    (s.abandonReception l).pinReset = s.pinReset ∧
    (s.abandonReception l).supplyReset = s.supplyReset ∧
    (s.abandonReception l).ownAddress = s.ownAddress ∧
    (s.abandonReception l).driverEnable = s.driverEnable ∧
    (s.abandonReception l).answer = s.answer ∧ (s.abandonReception l).holdTime = s.holdTime ∧
    (s.abandonReception l).lingerTime = s.lingerTime ∧ (s.abandonReception l).slots = s.slots ∧
    (s.abandonReception l).nextAdmission = s.nextAdmission ∧
    (s.abandonReception l).nextDelivery = s.nextDelivery ∧ (s.abandonReception l).attn = s.attn ∧
    (s.abandonReception l).bankA = s.bankA ∧ (s.abandonReception l).bankB = s.bankB ∧
    (s.abandonReception l).live = s.live ∧ (s.abandonReception l).otherRole = s.otherRole ∧
    (s.abandonReception l).generation = s.generation ∧
    (s.abandonReception l).drainCount = s.drainCount ∧ (s.abandonReception l).lines = s.lines ∧
    (s.abandonReception l).pendingRestart = s.pendingRestart ∧
    (s.abandonReception l).trunkCounters = s.trunkCounters ∧
    (s.abandonReception l).branchCounters = s.branchCounters ∧
    (s.abandonReception l).freeChoices = s.freeChoices ∧
    (s.abandonReception l).pending = s.pending := by
  simp only [State.abandonReception]; split <;> simp

/-- The readings that `abandonReception` leaves as they were. -/
@[simp] theorem abandonReception_reads (s : State) (l : Line) :
    (∀ b', (s.abandonReception l).line b' = s.line b') ∧
    (∀ i', (s.abandonReception l).record i' = s.record i') ∧
    (∀ i', (s.abandonReception l).issue i' = s.issue i') ∧
    (∀ i', (s.abandonReception l).ticket i' = s.ticket i') ∧
    (∀ k', (s.abandonReception l).bank k' = s.bank k') ∧
    (s.abandonReception l).liveBank = s.liveBank ∧
    (s.abandonReception l).otherBank = s.otherBank ∧
    (∀ c', (s.abandonReception l).trunkCount c' = s.trunkCount c') ∧
    (∀ b' c', (s.abandonReception l).branchCount b' c' = s.branchCount b' c') ∧
    (∀ p', (s.abandonReception l).someRecord p' = s.someRecord p') ∧
    (∀ p', (s.abandonReception l).countRecords p' = s.countRecords p') ∧
    (∀ b', (s.abandonReception l).activeCount b' = s.activeCount b') ∧
    (∀ k', (s.abandonReception l).activeIn k' = s.activeIn k') ∧
    (∀ i', (s.abandonReception l).eligible i' = s.eligible i') ∧
    (s.abandonReception l).inReset = s.inReset := by
  simp
    [State.line, State.record, State.issue, State.ticket, State.liveBank, State.bank,
     State.otherBank, State.trunkCount, State.branchCount, State.someRecord,
     State.countRecords, State.activeCount, State.activeIn, State.eligible, State.heldBack,
     State.inReset]

/-- What `takeBroadcast` leaves as it was. -/
@[simp] theorem takeBroadcast_frame (s : State) (b : Branch) (bc : Broadcast) :
    (s.takeBroadcast b bc).pinReset = s.pinReset ∧
    (s.takeBroadcast b bc).supplyReset = s.supplyReset ∧
    (s.takeBroadcast b bc).ownAddress = s.ownAddress ∧ (s.takeBroadcast b bc).answer = s.answer ∧
    (s.takeBroadcast b bc).holdTime = s.holdTime ∧
    (s.takeBroadcast b bc).lingerTime = s.lingerTime ∧ (s.takeBroadcast b bc).slots = s.slots ∧
    (s.takeBroadcast b bc).nextAdmission = s.nextAdmission ∧
    (s.takeBroadcast b bc).nextDelivery = s.nextDelivery ∧ (s.takeBroadcast b bc).attn = s.attn ∧
    (s.takeBroadcast b bc).bankA = s.bankA ∧ (s.takeBroadcast b bc).bankB = s.bankB ∧
    (s.takeBroadcast b bc).live = s.live ∧ (s.takeBroadcast b bc).otherRole = s.otherRole ∧
    (s.takeBroadcast b bc).generation = s.generation ∧
    (s.takeBroadcast b bc).drainCount = s.drainCount ∧
    (s.takeBroadcast b bc).pendingRestart = s.pendingRestart ∧
    (s.takeBroadcast b bc).trunkCounters = s.trunkCounters ∧
    (s.takeBroadcast b bc).freeChoices = s.freeChoices ∧
    (s.takeBroadcast b bc).pending = s.pending := by
  simp [State.takeBroadcast]

/-- The readings that `takeBroadcast` leaves as they were. -/
@[simp] theorem takeBroadcast_reads (s : State) (b : Branch) (bc : Broadcast) :
    (∀ i', (s.takeBroadcast b bc).record i' = s.record i') ∧
    (∀ i', (s.takeBroadcast b bc).issue i' = s.issue i') ∧
    (∀ i', (s.takeBroadcast b bc).ticket i' = s.ticket i') ∧
    (∀ k', (s.takeBroadcast b bc).bank k' = s.bank k') ∧
    (s.takeBroadcast b bc).liveBank = s.liveBank ∧
    (s.takeBroadcast b bc).otherBank = s.otherBank ∧
    (∀ c', (s.takeBroadcast b bc).trunkCount c' = s.trunkCount c') ∧
    (∀ p', (s.takeBroadcast b bc).someRecord p' = s.someRecord p') ∧
    (∀ p', (s.takeBroadcast b bc).countRecords p' = s.countRecords p') ∧
    (∀ b', (s.takeBroadcast b bc).activeCount b' = s.activeCount b') ∧
    (∀ k', (s.takeBroadcast b bc).activeIn k' = s.activeIn k') ∧
    (∀ i', (s.takeBroadcast b bc).eligible i' = s.eligible i') ∧
    (s.takeBroadcast b bc).inReset = s.inReset := by
  simp
    [State.record, State.issue, State.ticket, State.liveBank, State.bank, State.otherBank,
     State.trunkCount, State.someRecord, State.countRecords, State.activeCount, State.activeIn,
     State.eligible, State.heldBack, State.inReset]

/-- What `takeRecord` leaves as it was. -/
@[simp] theorem takeRecord_frame (s : State) (b : Branch) (i : SlotId) :
    (s.takeRecord b i).pinReset = s.pinReset ∧ (s.takeRecord b i).supplyReset = s.supplyReset ∧
    (s.takeRecord b i).ownAddress = s.ownAddress ∧ (s.takeRecord b i).answer = s.answer ∧
    (s.takeRecord b i).holdTime = s.holdTime ∧ (s.takeRecord b i).lingerTime = s.lingerTime ∧
    (s.takeRecord b i).nextAdmission = s.nextAdmission ∧
    (s.takeRecord b i).nextDelivery = s.nextDelivery ∧ (s.takeRecord b i).attn = s.attn ∧
    (s.takeRecord b i).bankA = s.bankA ∧ (s.takeRecord b i).bankB = s.bankB ∧
    (s.takeRecord b i).live = s.live ∧ (s.takeRecord b i).otherRole = s.otherRole ∧
    (s.takeRecord b i).generation = s.generation ∧ (s.takeRecord b i).drainCount = s.drainCount ∧
    (s.takeRecord b i).pendingRestart = s.pendingRestart ∧
    (s.takeRecord b i).trunkCounters = s.trunkCounters ∧
    (s.takeRecord b i).freeChoices = s.freeChoices ∧ (s.takeRecord b i).pending = s.pending := by
  simp only [State.takeRecord]; split <;> simp

/-- The readings that `takeRecord` leaves as they were. -/
@[simp] theorem takeRecord_reads (s : State) (b : Branch) (i : SlotId) :
    (∀ k', (s.takeRecord b i).bank k' = s.bank k') ∧ (s.takeRecord b i).liveBank = s.liveBank ∧
    (s.takeRecord b i).otherBank = s.otherBank ∧
    (∀ c', (s.takeRecord b i).trunkCount c' = s.trunkCount c') ∧
    (s.takeRecord b i).inReset = s.inReset := by
  simp [State.liveBank, State.bank, State.otherBank, State.trunkCount, State.inReset]

/-- What `look` leaves as it was. -/
@[simp] theorem look_frame (s : State) (b : Branch) :
    (s.look b).pinReset = s.pinReset ∧ (s.look b).supplyReset = s.supplyReset ∧
    (s.look b).ownAddress = s.ownAddress ∧ (s.look b).answer = s.answer ∧
    (s.look b).holdTime = s.holdTime ∧ (s.look b).lingerTime = s.lingerTime ∧
    (s.look b).nextAdmission = s.nextAdmission ∧ (s.look b).nextDelivery = s.nextDelivery ∧
    (s.look b).attn = s.attn ∧ (s.look b).bankA = s.bankA ∧ (s.look b).bankB = s.bankB ∧
    (s.look b).live = s.live ∧ (s.look b).otherRole = s.otherRole ∧
    (s.look b).generation = s.generation ∧ (s.look b).drainCount = s.drainCount ∧
    (s.look b).pendingRestart = s.pendingRestart ∧ (s.look b).trunkCounters = s.trunkCounters ∧
    (s.look b).freeChoices = s.freeChoices ∧ (s.look b).pending = s.pending := by
  simp only [State.look]; (repeat' split) <;> simp

/-- The readings that `look` leaves as they were. -/
@[simp] theorem look_reads (s : State) (b : Branch) :
    (∀ k', (s.look b).bank k' = s.bank k') ∧ (s.look b).liveBank = s.liveBank ∧
    (s.look b).otherBank = s.otherBank ∧ (∀ c', (s.look b).trunkCount c' = s.trunkCount c') ∧
    (s.look b).inReset = s.inReset := by
  simp [State.liveBank, State.bank, State.otherBank, State.trunkCount, State.inReset]

/-- What `lookAll` leaves as it was. -/
@[simp] theorem lookAll_frame (s : State) :
    s.lookAll.pinReset = s.pinReset ∧ s.lookAll.supplyReset = s.supplyReset ∧
    s.lookAll.ownAddress = s.ownAddress ∧ s.lookAll.answer = s.answer ∧
    s.lookAll.holdTime = s.holdTime ∧ s.lookAll.lingerTime = s.lingerTime ∧
    s.lookAll.nextAdmission = s.nextAdmission ∧ s.lookAll.nextDelivery = s.nextDelivery ∧
    s.lookAll.attn = s.attn ∧ s.lookAll.bankA = s.bankA ∧ s.lookAll.bankB = s.bankB ∧
    s.lookAll.live = s.live ∧ s.lookAll.otherRole = s.otherRole ∧
    s.lookAll.generation = s.generation ∧ s.lookAll.drainCount = s.drainCount ∧
    s.lookAll.pendingRestart = s.pendingRestart ∧ s.lookAll.trunkCounters = s.trunkCounters ∧
    s.lookAll.freeChoices = s.freeChoices ∧ s.lookAll.pending = s.pending :=
  ⟨foldl_keeps State.pinReset (fun s b => by simp) _ s,
   foldl_keeps State.supplyReset (fun s b => by simp) _ s,
   foldl_keeps State.ownAddress (fun s b => by simp) _ s,
   foldl_keeps State.answer (fun s b => by simp) _ s,
   foldl_keeps State.holdTime (fun s b => by simp) _ s,
   foldl_keeps State.lingerTime (fun s b => by simp) _ s,
   foldl_keeps State.nextAdmission (fun s b => by simp) _ s,
   foldl_keeps State.nextDelivery (fun s b => by simp) _ s,
   foldl_keeps State.attn (fun s b => by simp) _ s,
   foldl_keeps State.bankA (fun s b => by simp) _ s,
   foldl_keeps State.bankB (fun s b => by simp) _ s,
   foldl_keeps State.live (fun s b => by simp) _ s,
   foldl_keeps State.otherRole (fun s b => by simp) _ s,
   foldl_keeps State.generation (fun s b => by simp) _ s,
   foldl_keeps State.drainCount (fun s b => by simp) _ s,
   foldl_keeps State.pendingRestart (fun s b => by simp) _ s,
   foldl_keeps State.trunkCounters (fun s b => by simp) _ s,
   foldl_keeps State.freeChoices (fun s b => by simp) _ s,
   foldl_keeps State.pending (fun s b => by simp) _ s⟩

/-- The readings that `lookAll` leaves as they were. -/
@[simp] theorem lookAll_reads (s : State) :
    (∀ k', s.lookAll.bank k' = s.bank k') ∧ s.lookAll.liveBank = s.liveBank ∧
    s.lookAll.otherBank = s.otherBank ∧ (∀ c', s.lookAll.trunkCount c' = s.trunkCount c') ∧
    s.lookAll.inReset = s.inReset := by
  simp [State.liveBank, State.bank, State.otherBank, State.trunkCount, State.inReset]

/-- What `joinQueue` leaves as it was. -/
@[simp] theorem joinQueue_frame (s : State) (b : Branch) (i : SlotId) :
    (s.joinQueue b i).pinReset = s.pinReset ∧ (s.joinQueue b i).supplyReset = s.supplyReset ∧
    (s.joinQueue b i).ownAddress = s.ownAddress ∧ (s.joinQueue b i).answer = s.answer ∧
    (s.joinQueue b i).holdTime = s.holdTime ∧ (s.joinQueue b i).lingerTime = s.lingerTime ∧
    (s.joinQueue b i).nextAdmission = s.nextAdmission ∧
    (s.joinQueue b i).nextDelivery = s.nextDelivery ∧ (s.joinQueue b i).attn = s.attn ∧
    (s.joinQueue b i).bankA = s.bankA ∧ (s.joinQueue b i).bankB = s.bankB ∧
    (s.joinQueue b i).live = s.live ∧ (s.joinQueue b i).otherRole = s.otherRole ∧
    (s.joinQueue b i).generation = s.generation ∧ (s.joinQueue b i).drainCount = s.drainCount ∧
    (s.joinQueue b i).pendingRestart = s.pendingRestart ∧
    (s.joinQueue b i).trunkCounters = s.trunkCounters ∧
    (s.joinQueue b i).freeChoices = s.freeChoices ∧ (s.joinQueue b i).pending = s.pending := by
  simp [State.joinQueue]

/-- The readings that `joinQueue` leaves as they were. -/
@[simp] theorem joinQueue_reads (s : State) (b : Branch) (i : SlotId) :
    (∀ k', (s.joinQueue b i).bank k' = s.bank k') ∧ (s.joinQueue b i).liveBank = s.liveBank ∧
    (s.joinQueue b i).otherBank = s.otherBank ∧
    (∀ c', (s.joinQueue b i).trunkCount c' = s.trunkCount c') ∧
    (s.joinQueue b i).inReset = s.inReset := by
  simp [State.liveBank, State.bank, State.otherBank, State.trunkCount, State.inReset]

/-- What `depart` leaves as it was. -/
@[simp] theorem depart_frame (s : State) (k : BankId) :
    (s.depart k).pinReset = s.pinReset ∧ (s.depart k).supplyReset = s.supplyReset ∧
    (s.depart k).ownAddress = s.ownAddress ∧ (s.depart k).framers = s.framers ∧
    (s.depart k).driverEnable = s.driverEnable ∧ (s.depart k).answer = s.answer ∧
    (s.depart k).holdTime = s.holdTime ∧ (s.depart k).lingerTime = s.lingerTime ∧
    (s.depart k).slots = s.slots ∧ (s.depart k).nextAdmission = s.nextAdmission ∧
    (s.depart k).nextDelivery = s.nextDelivery ∧ (s.depart k).attn = s.attn ∧
    (s.depart k).bankA = s.bankA ∧ (s.depart k).bankB = s.bankB ∧ (s.depart k).live = s.live ∧
    (s.depart k).generation = s.generation ∧ (s.depart k).lines = s.lines ∧
    (s.depart k).pendingRestart = s.pendingRestart ∧
    (s.depart k).trunkCounters = s.trunkCounters ∧
    (s.depart k).branchCounters = s.branchCounters ∧ (s.depart k).freeChoices = s.freeChoices ∧
    (s.depart k).pending = s.pending := by
  simp only [State.depart]; (repeat' split) <;> simp

/-- The readings that `depart` leaves as they were. -/
@[simp] theorem depart_reads (s : State) (k : BankId) :
    (∀ l', (s.depart k).framer l' = s.framer l') ∧ (∀ b', (s.depart k).line b' = s.line b') ∧
    (∀ i', (s.depart k).record i' = s.record i') ∧ (∀ i', (s.depart k).issue i' = s.issue i') ∧
    (∀ i', (s.depart k).ticket i' = s.ticket i') ∧ (∀ k', (s.depart k).bank k' = s.bank k') ∧
    (s.depart k).liveBank = s.liveBank ∧ (s.depart k).otherBank = s.otherBank ∧
    (∀ c', (s.depart k).trunkCount c' = s.trunkCount c') ∧
    (∀ b' c', (s.depart k).branchCount b' c' = s.branchCount b' c') ∧
    (∀ p', (s.depart k).someRecord p' = s.someRecord p') ∧
    (∀ p', (s.depart k).countRecords p' = s.countRecords p') ∧
    (∀ b', (s.depart k).activeCount b' = s.activeCount b') ∧
    (∀ k', (s.depart k).activeIn k' = s.activeIn k') ∧
    (∀ i', (s.depart k).eligible i' = s.eligible i') ∧ (s.depart k).inReset = s.inReset := by
  simp
    [State.framer, State.line, State.record, State.issue, State.ticket, State.liveBank,
     State.bank, State.otherBank, State.trunkCount, State.branchCount, State.someRecord,
     State.countRecords, State.activeCount, State.activeIn, State.eligible, State.heldBack,
     State.inReset]

/-- What `orphan` leaves as it was. -/
@[simp] theorem orphan_frame (s : State) (b : Branch) (i : SlotId) :
    (s.orphan b i).pinReset = s.pinReset ∧ (s.orphan b i).supplyReset = s.supplyReset ∧
    (s.orphan b i).ownAddress = s.ownAddress ∧ (s.orphan b i).framers = s.framers ∧
    (s.orphan b i).driverEnable = s.driverEnable ∧ (s.orphan b i).answer = s.answer ∧
    (s.orphan b i).holdTime = s.holdTime ∧ (s.orphan b i).lingerTime = s.lingerTime ∧
    (s.orphan b i).slots = s.slots ∧ (s.orphan b i).nextAdmission = s.nextAdmission ∧
    (s.orphan b i).nextDelivery = s.nextDelivery ∧ (s.orphan b i).attn = s.attn ∧
    (s.orphan b i).bankA = s.bankA ∧ (s.orphan b i).bankB = s.bankB ∧
    (s.orphan b i).live = s.live ∧ (s.orphan b i).otherRole = s.otherRole ∧
    (s.orphan b i).generation = s.generation ∧ (s.orphan b i).drainCount = s.drainCount ∧
    (s.orphan b i).pendingRestart = s.pendingRestart ∧
    (s.orphan b i).trunkCounters = s.trunkCounters ∧
    (s.orphan b i).branchCounters = s.branchCounters ∧
    (s.orphan b i).freeChoices = s.freeChoices ∧ (s.orphan b i).pending = s.pending := by
  simp only [State.orphan]; (repeat' split) <;> simp

/-- The readings that `orphan` leaves as they were. -/
@[simp] theorem orphan_reads (s : State) (b : Branch) (i : SlotId) :
    (∀ l', (s.orphan b i).framer l' = s.framer l') ∧
    (∀ i', (s.orphan b i).record i' = s.record i') ∧
    (∀ i', (s.orphan b i).issue i' = s.issue i') ∧
    (∀ i', (s.orphan b i).ticket i' = s.ticket i') ∧ (∀ k', (s.orphan b i).bank k' = s.bank k') ∧
    (s.orphan b i).liveBank = s.liveBank ∧ (s.orphan b i).otherBank = s.otherBank ∧
    (∀ c', (s.orphan b i).trunkCount c' = s.trunkCount c') ∧
    (∀ b' c', (s.orphan b i).branchCount b' c' = s.branchCount b' c') ∧
    (∀ p', (s.orphan b i).someRecord p' = s.someRecord p') ∧
    (∀ p', (s.orphan b i).countRecords p' = s.countRecords p') ∧
    (∀ b', (s.orphan b i).activeCount b' = s.activeCount b') ∧
    (∀ k', (s.orphan b i).activeIn k' = s.activeIn k') ∧
    (∀ i', (s.orphan b i).eligible i' = s.eligible i') ∧ (s.orphan b i).inReset = s.inReset := by
  simp
    [State.framer, State.record, State.issue, State.ticket, State.liveBank, State.bank,
     State.otherBank, State.trunkCount, State.branchCount, State.someRecord,
     State.countRecords, State.activeCount, State.activeIn, State.eligible, State.heldBack,
     State.inReset]

/-- What `leaveLine` leaves as it was. -/
@[simp] theorem leaveLine_frame (s : State) (i : SlotId) (r : Record) :
    (s.leaveLine i r).pinReset = s.pinReset ∧ (s.leaveLine i r).supplyReset = s.supplyReset ∧
    (s.leaveLine i r).ownAddress = s.ownAddress ∧ (s.leaveLine i r).framers = s.framers ∧
    (s.leaveLine i r).driverEnable = s.driverEnable ∧ (s.leaveLine i r).answer = s.answer ∧
    (s.leaveLine i r).holdTime = s.holdTime ∧ (s.leaveLine i r).lingerTime = s.lingerTime ∧
    (s.leaveLine i r).slots = s.slots ∧ (s.leaveLine i r).nextAdmission = s.nextAdmission ∧
    (s.leaveLine i r).nextDelivery = s.nextDelivery ∧ (s.leaveLine i r).attn = s.attn ∧
    (s.leaveLine i r).bankA = s.bankA ∧ (s.leaveLine i r).bankB = s.bankB ∧
    (s.leaveLine i r).live = s.live ∧ (s.leaveLine i r).otherRole = s.otherRole ∧
    (s.leaveLine i r).generation = s.generation ∧ (s.leaveLine i r).drainCount = s.drainCount ∧
    (s.leaveLine i r).pendingRestart = s.pendingRestart ∧
    (s.leaveLine i r).trunkCounters = s.trunkCounters ∧
    (s.leaveLine i r).branchCounters = s.branchCounters ∧
    (s.leaveLine i r).freeChoices = s.freeChoices ∧ (s.leaveLine i r).pending = s.pending := by
  simp only [State.leaveLine]; (repeat' split) <;> simp

/-- The readings that `leaveLine` leaves as they were. -/
@[simp] theorem leaveLine_reads (s : State) (i : SlotId) (r : Record) :
    (∀ l', (s.leaveLine i r).framer l' = s.framer l') ∧
    (∀ i', (s.leaveLine i r).record i' = s.record i') ∧
    (∀ i', (s.leaveLine i r).issue i' = s.issue i') ∧
    (∀ i', (s.leaveLine i r).ticket i' = s.ticket i') ∧
    (∀ k', (s.leaveLine i r).bank k' = s.bank k') ∧ (s.leaveLine i r).liveBank = s.liveBank ∧
    (s.leaveLine i r).otherBank = s.otherBank ∧
    (∀ c', (s.leaveLine i r).trunkCount c' = s.trunkCount c') ∧
    (∀ b' c', (s.leaveLine i r).branchCount b' c' = s.branchCount b' c') ∧
    (∀ p', (s.leaveLine i r).someRecord p' = s.someRecord p') ∧
    (∀ p', (s.leaveLine i r).countRecords p' = s.countRecords p') ∧
    (∀ b', (s.leaveLine i r).activeCount b' = s.activeCount b') ∧
    (∀ k', (s.leaveLine i r).activeIn k' = s.activeIn k') ∧
    (∀ i', (s.leaveLine i r).eligible i' = s.eligible i') ∧
    (s.leaveLine i r).inReset = s.inReset := by
  simp
    [State.framer, State.record, State.issue, State.ticket, State.liveBank, State.bank,
     State.otherBank, State.trunkCount, State.branchCount, State.someRecord,
     State.countRecords, State.activeCount, State.activeIn, State.eligible, State.heldBack,
     State.inReset]

/-- What `complete` leaves as it was. -/
@[simp] theorem complete_frame (s : State) (i : SlotId) (x : Result) :
    (s.complete i x).pinReset = s.pinReset ∧ (s.complete i x).supplyReset = s.supplyReset ∧
    (s.complete i x).ownAddress = s.ownAddress ∧ (s.complete i x).framers = s.framers ∧
    (s.complete i x).driverEnable = s.driverEnable ∧ (s.complete i x).answer = s.answer ∧
    (s.complete i x).holdTime = s.holdTime ∧ (s.complete i x).lingerTime = s.lingerTime ∧
    (s.complete i x).nextAdmission = s.nextAdmission ∧
    (s.complete i x).nextDelivery = s.nextDelivery ∧ (s.complete i x).bankA = s.bankA ∧
    (s.complete i x).bankB = s.bankB ∧ (s.complete i x).live = s.live ∧
    (s.complete i x).generation = s.generation ∧
    (s.complete i x).pendingRestart = s.pendingRestart ∧
    (s.complete i x).trunkCounters = s.trunkCounters ∧
    (s.complete i x).branchCounters = s.branchCounters ∧
    (s.complete i x).freeChoices = s.freeChoices ∧ (s.complete i x).pending = s.pending := by
  simp only [State.complete]; (repeat' split) <;> simp

/-- The readings that `complete` leaves as they were. -/
@[simp] theorem complete_reads (s : State) (i : SlotId) (x : Result) :
    (∀ l', (s.complete i x).framer l' = s.framer l') ∧
    (∀ k', (s.complete i x).bank k' = s.bank k') ∧ (s.complete i x).liveBank = s.liveBank ∧
    (s.complete i x).otherBank = s.otherBank ∧
    (∀ c', (s.complete i x).trunkCount c' = s.trunkCount c') ∧
    (∀ b' c', (s.complete i x).branchCount b' c' = s.branchCount b' c') ∧
    (s.complete i x).inReset = s.inReset := by
  simp
    [State.framer, State.liveBank, State.bank, State.otherBank, State.trunkCount,
     State.branchCount, State.inReset]

/-- What `completeEarly` leaves as it was. -/
@[simp] theorem completeEarly_frame (s : State) (i : SlotId) (x : Result) :
    (s.completeEarly i x).pinReset = s.pinReset ∧
    (s.completeEarly i x).supplyReset = s.supplyReset ∧
    (s.completeEarly i x).ownAddress = s.ownAddress ∧ (s.completeEarly i x).answer = s.answer ∧
    (s.completeEarly i x).holdTime = s.holdTime ∧
    (s.completeEarly i x).lingerTime = s.lingerTime ∧
    (s.completeEarly i x).nextAdmission = s.nextAdmission ∧
    (s.completeEarly i x).nextDelivery = s.nextDelivery ∧ (s.completeEarly i x).bankA = s.bankA ∧
    (s.completeEarly i x).bankB = s.bankB ∧ (s.completeEarly i x).live = s.live ∧
    (s.completeEarly i x).generation = s.generation ∧
    (s.completeEarly i x).pendingRestart = s.pendingRestart ∧
    (s.completeEarly i x).trunkCounters = s.trunkCounters ∧
    (s.completeEarly i x).freeChoices = s.freeChoices ∧
    (s.completeEarly i x).pending = s.pending := by
  simp only [State.completeEarly]; (repeat' split) <;> simp

/-- The readings that `completeEarly` leaves as they were. -/
@[simp] theorem completeEarly_reads (s : State) (i : SlotId) (x : Result) :
    (∀ k', (s.completeEarly i x).bank k' = s.bank k') ∧
    (s.completeEarly i x).liveBank = s.liveBank ∧ (s.completeEarly i x).otherBank = s.otherBank ∧
    (∀ c', (s.completeEarly i x).trunkCount c' = s.trunkCount c') ∧
    (s.completeEarly i x).inReset = s.inReset := by
  simp [State.liveBank, State.bank, State.otherBank, State.trunkCount, State.inReset]

/-- What `completeAll` leaves as it was. -/
@[simp] theorem completeAll_frame (s : State) (p : Record → Bool) (x : Result) :
    (s.completeAll p x).pinReset = s.pinReset ∧ (s.completeAll p x).supplyReset = s.supplyReset ∧
    (s.completeAll p x).ownAddress = s.ownAddress ∧ (s.completeAll p x).framers = s.framers ∧
    (s.completeAll p x).driverEnable = s.driverEnable ∧ (s.completeAll p x).answer = s.answer ∧
    (s.completeAll p x).holdTime = s.holdTime ∧ (s.completeAll p x).lingerTime = s.lingerTime ∧
    (s.completeAll p x).nextAdmission = s.nextAdmission ∧
    (s.completeAll p x).nextDelivery = s.nextDelivery ∧ (s.completeAll p x).bankA = s.bankA ∧
    (s.completeAll p x).bankB = s.bankB ∧ (s.completeAll p x).live = s.live ∧
    (s.completeAll p x).generation = s.generation ∧
    (s.completeAll p x).pendingRestart = s.pendingRestart ∧
    (s.completeAll p x).trunkCounters = s.trunkCounters ∧
    (s.completeAll p x).branchCounters = s.branchCounters ∧
    (s.completeAll p x).freeChoices = s.freeChoices ∧ (s.completeAll p x).pending = s.pending :=
  ⟨foldl_keeps State.pinReset (fun s i => by split <;> simp) _ s,
   foldl_keeps State.supplyReset (fun s i => by split <;> simp) _ s,
   foldl_keeps State.ownAddress (fun s i => by split <;> simp) _ s,
   foldl_keeps State.framers (fun s i => by split <;> simp) _ s,
   foldl_keeps State.driverEnable (fun s i => by split <;> simp) _ s,
   foldl_keeps State.answer (fun s i => by split <;> simp) _ s,
   foldl_keeps State.holdTime (fun s i => by split <;> simp) _ s,
   foldl_keeps State.lingerTime (fun s i => by split <;> simp) _ s,
   foldl_keeps State.nextAdmission (fun s i => by split <;> simp) _ s,
   foldl_keeps State.nextDelivery (fun s i => by split <;> simp) _ s,
   foldl_keeps State.bankA (fun s i => by split <;> simp) _ s,
   foldl_keeps State.bankB (fun s i => by split <;> simp) _ s,
   foldl_keeps State.live (fun s i => by split <;> simp) _ s,
   foldl_keeps State.generation (fun s i => by split <;> simp) _ s,
   foldl_keeps State.pendingRestart (fun s i => by split <;> simp) _ s,
   foldl_keeps State.trunkCounters (fun s i => by split <;> simp) _ s,
   foldl_keeps State.branchCounters (fun s i => by split <;> simp) _ s,
   foldl_keeps State.freeChoices (fun s i => by split <;> simp) _ s,
   foldl_keeps State.pending (fun s i => by split <;> simp) _ s⟩

/-- The readings that `completeAll` leaves as they were. -/
@[simp] theorem completeAll_reads (s : State) (p : Record → Bool) (x : Result) :
    (∀ l', (s.completeAll p x).framer l' = s.framer l') ∧
    (∀ k', (s.completeAll p x).bank k' = s.bank k') ∧ (s.completeAll p x).liveBank = s.liveBank ∧
    (s.completeAll p x).otherBank = s.otherBank ∧
    (∀ c', (s.completeAll p x).trunkCount c' = s.trunkCount c') ∧
    (∀ b' c', (s.completeAll p x).branchCount b' c' = s.branchCount b' c') ∧
    (s.completeAll p x).inReset = s.inReset := by
  simp
    [State.framer, State.liveBank, State.bank, State.otherBank, State.trunkCount,
     State.branchCount, State.inReset]

/-- What `defer` leaves as it was. -/
@[simp] theorem defer_frame (s : State) (i : SlotId) (r : Record) (a : Action) :
    (s.defer i r a).pinReset = s.pinReset ∧ (s.defer i r a).supplyReset = s.supplyReset ∧
    (s.defer i r a).ownAddress = s.ownAddress ∧ (s.defer i r a).framers = s.framers ∧
    (s.defer i r a).driverEnable = s.driverEnable ∧ (s.defer i r a).answer = s.answer ∧
    (s.defer i r a).holdTime = s.holdTime ∧ (s.defer i r a).lingerTime = s.lingerTime ∧
    (s.defer i r a).nextAdmission = s.nextAdmission ∧
    (s.defer i r a).nextDelivery = s.nextDelivery ∧ (s.defer i r a).attn = s.attn ∧
    (s.defer i r a).bankA = s.bankA ∧ (s.defer i r a).bankB = s.bankB ∧
    (s.defer i r a).live = s.live ∧ (s.defer i r a).otherRole = s.otherRole ∧
    (s.defer i r a).generation = s.generation ∧ (s.defer i r a).drainCount = s.drainCount ∧
    (s.defer i r a).lines = s.lines ∧ (s.defer i r a).pendingRestart = s.pendingRestart ∧
    (s.defer i r a).trunkCounters = s.trunkCounters ∧
    (s.defer i r a).branchCounters = s.branchCounters ∧
    (s.defer i r a).freeChoices = s.freeChoices ∧ (s.defer i r a).pending = s.pending := by
  simp [State.defer]

/-- The readings that `defer` leaves as they were. -/
@[simp] theorem defer_reads (s : State) (i : SlotId) (r : Record) (a : Action) :
    (∀ l', (s.defer i r a).framer l' = s.framer l') ∧
    (∀ b', (s.defer i r a).line b' = s.line b') ∧ (∀ k', (s.defer i r a).bank k' = s.bank k') ∧
    (s.defer i r a).liveBank = s.liveBank ∧ (s.defer i r a).otherBank = s.otherBank ∧
    (∀ c', (s.defer i r a).trunkCount c' = s.trunkCount c') ∧
    (∀ b' c', (s.defer i r a).branchCount b' c' = s.branchCount b' c') ∧
    (s.defer i r a).inReset = s.inReset := by
  simp
    [State.framer, State.line, State.liveBank, State.bank, State.otherBank, State.trunkCount,
     State.branchCount, State.inReset]

/-- What `reportAnswer` leaves as it was. -/
@[simp] theorem reportAnswer_frame (s : State) (i : SlotId) (t : Telegram) :
    (s.reportAnswer i t).pinReset = s.pinReset ∧
    (s.reportAnswer i t).supplyReset = s.supplyReset ∧
    (s.reportAnswer i t).ownAddress = s.ownAddress ∧ (s.reportAnswer i t).framers = s.framers ∧
    (s.reportAnswer i t).driverEnable = s.driverEnable ∧ (s.reportAnswer i t).answer = s.answer ∧
    (s.reportAnswer i t).holdTime = s.holdTime ∧ (s.reportAnswer i t).lingerTime = s.lingerTime ∧
    (s.reportAnswer i t).nextAdmission = s.nextAdmission ∧
    (s.reportAnswer i t).nextDelivery = s.nextDelivery ∧ (s.reportAnswer i t).bankA = s.bankA ∧
    (s.reportAnswer i t).bankB = s.bankB ∧ (s.reportAnswer i t).live = s.live ∧
    (s.reportAnswer i t).generation = s.generation ∧
    (s.reportAnswer i t).pendingRestart = s.pendingRestart ∧
    (s.reportAnswer i t).trunkCounters = s.trunkCounters ∧
    (s.reportAnswer i t).branchCounters = s.branchCounters ∧
    (s.reportAnswer i t).freeChoices = s.freeChoices ∧
    (s.reportAnswer i t).pending = s.pending := by
  simp only [State.reportAnswer]; (repeat' split) <;> simp

/-- The readings that `reportAnswer` leaves as they were. -/
@[simp] theorem reportAnswer_reads (s : State) (i : SlotId) (t : Telegram) :
    (∀ l', (s.reportAnswer i t).framer l' = s.framer l') ∧
    (∀ k', (s.reportAnswer i t).bank k' = s.bank k') ∧
    (s.reportAnswer i t).liveBank = s.liveBank ∧ (s.reportAnswer i t).otherBank = s.otherBank ∧
    (∀ c', (s.reportAnswer i t).trunkCount c' = s.trunkCount c') ∧
    (∀ b' c', (s.reportAnswer i t).branchCount b' c' = s.branchCount b' c') ∧
    (s.reportAnswer i t).inReset = s.inReset := by
  simp
    [State.framer, State.liveBank, State.bank, State.otherBank, State.trunkCount,
     State.branchCount, State.inReset]

/-- What `reportFailure` leaves as it was. -/
@[simp] theorem reportFailure_frame (s : State) (i : SlotId) (f : Failure) :
    (s.reportFailure i f).pinReset = s.pinReset ∧
    (s.reportFailure i f).supplyReset = s.supplyReset ∧
    (s.reportFailure i f).ownAddress = s.ownAddress ∧ (s.reportFailure i f).answer = s.answer ∧
    (s.reportFailure i f).holdTime = s.holdTime ∧
    (s.reportFailure i f).lingerTime = s.lingerTime ∧
    (s.reportFailure i f).nextAdmission = s.nextAdmission ∧
    (s.reportFailure i f).nextDelivery = s.nextDelivery ∧ (s.reportFailure i f).bankA = s.bankA ∧
    (s.reportFailure i f).bankB = s.bankB ∧ (s.reportFailure i f).live = s.live ∧
    (s.reportFailure i f).generation = s.generation ∧
    (s.reportFailure i f).pendingRestart = s.pendingRestart ∧
    (s.reportFailure i f).trunkCounters = s.trunkCounters ∧
    (s.reportFailure i f).freeChoices = s.freeChoices ∧
    (s.reportFailure i f).pending = s.pending := by
  simp only [State.reportFailure]; (repeat' split) <;> simp

/-- The readings that `reportFailure` leaves as they were. -/
@[simp] theorem reportFailure_reads (s : State) (i : SlotId) (f : Failure) :
    (∀ k', (s.reportFailure i f).bank k' = s.bank k') ∧
    (s.reportFailure i f).liveBank = s.liveBank ∧ (s.reportFailure i f).otherBank = s.otherBank ∧
    (∀ c', (s.reportFailure i f).trunkCount c' = s.trunkCount c') ∧
    (s.reportFailure i f).inReset = s.inReset := by
  simp [State.liveBank, State.bank, State.otherBank, State.trunkCount, State.inReset]

/-- What `lineDown` leaves as it was. -/
@[simp] theorem lineDown_frame (s : State) (b : Branch) (st : LineState) :
    (s.lineDown b st).pinReset = s.pinReset ∧ (s.lineDown b st).supplyReset = s.supplyReset ∧
    (s.lineDown b st).ownAddress = s.ownAddress ∧ (s.lineDown b st).answer = s.answer ∧
    (s.lineDown b st).holdTime = s.holdTime ∧ (s.lineDown b st).lingerTime = s.lingerTime ∧
    (s.lineDown b st).nextAdmission = s.nextAdmission ∧
    (s.lineDown b st).nextDelivery = s.nextDelivery ∧ (s.lineDown b st).bankA = s.bankA ∧
    (s.lineDown b st).bankB = s.bankB ∧ (s.lineDown b st).live = s.live ∧
    (s.lineDown b st).generation = s.generation ∧
    (s.lineDown b st).pendingRestart = s.pendingRestart ∧
    (s.lineDown b st).trunkCounters = s.trunkCounters ∧
    (s.lineDown b st).freeChoices = s.freeChoices ∧ (s.lineDown b st).pending = s.pending := by
  simp only [State.lineDown]; (repeat' split) <;> simp

/-- The readings that `lineDown` leaves as they were. -/
@[simp] theorem lineDown_reads (s : State) (b : Branch) (st : LineState) :
    (∀ k', (s.lineDown b st).bank k' = s.bank k') ∧ (s.lineDown b st).liveBank = s.liveBank ∧
    (s.lineDown b st).otherBank = s.otherBank ∧
    (∀ c', (s.lineDown b st).trunkCount c' = s.trunkCount c') ∧
    (s.lineDown b st).inReset = s.inReset := by
  simp [State.liveBank, State.bank, State.otherBank, State.trunkCount, State.inReset]

/-- What `applyRate` leaves as it was. -/
@[simp] theorem applyRate_frame (s : State) (b : Branch) :
    (s.applyRate b).pinReset = s.pinReset ∧ (s.applyRate b).supplyReset = s.supplyReset ∧
    (s.applyRate b).ownAddress = s.ownAddress ∧ (s.applyRate b).driverEnable = s.driverEnable ∧
    (s.applyRate b).answer = s.answer ∧ (s.applyRate b).holdTime = s.holdTime ∧
    (s.applyRate b).lingerTime = s.lingerTime ∧ (s.applyRate b).slots = s.slots ∧
    (s.applyRate b).nextAdmission = s.nextAdmission ∧
    (s.applyRate b).nextDelivery = s.nextDelivery ∧ (s.applyRate b).attn = s.attn ∧
    (s.applyRate b).bankA = s.bankA ∧ (s.applyRate b).bankB = s.bankB ∧
    (s.applyRate b).live = s.live ∧ (s.applyRate b).otherRole = s.otherRole ∧
    (s.applyRate b).generation = s.generation ∧ (s.applyRate b).drainCount = s.drainCount ∧
    (s.applyRate b).pendingRestart = s.pendingRestart ∧
    (s.applyRate b).trunkCounters = s.trunkCounters ∧
    (s.applyRate b).branchCounters = s.branchCounters ∧
    (s.applyRate b).freeChoices = s.freeChoices ∧ (s.applyRate b).pending = s.pending := by
  simp only [State.applyRate]; split <;> simp

/-- The readings that `applyRate` leaves as they were. -/
@[simp] theorem applyRate_reads (s : State) (b : Branch) :
    (∀ i', (s.applyRate b).record i' = s.record i') ∧
    (∀ i', (s.applyRate b).issue i' = s.issue i') ∧
    (∀ i', (s.applyRate b).ticket i' = s.ticket i') ∧
    (∀ k', (s.applyRate b).bank k' = s.bank k') ∧ (s.applyRate b).liveBank = s.liveBank ∧
    (s.applyRate b).otherBank = s.otherBank ∧
    (∀ c', (s.applyRate b).trunkCount c' = s.trunkCount c') ∧
    (∀ b' c', (s.applyRate b).branchCount b' c' = s.branchCount b' c') ∧
    (∀ p', (s.applyRate b).someRecord p' = s.someRecord p') ∧
    (∀ p', (s.applyRate b).countRecords p' = s.countRecords p') ∧
    (∀ b', (s.applyRate b).activeCount b' = s.activeCount b') ∧
    (∀ k', (s.applyRate b).activeIn k' = s.activeIn k') ∧
    (∀ i', (s.applyRate b).eligible i' = s.eligible i') ∧ (s.applyRate b).inReset = s.inReset := by
  simp
    [State.record, State.issue, State.ticket, State.liveBank, State.bank, State.otherBank,
     State.trunkCount, State.branchCount, State.someRecord, State.countRecords,
     State.activeCount, State.activeIn, State.eligible, State.heldBack, State.inReset]

/-- What `enterIdle` leaves as it was. -/
@[simp] theorem enterIdle_frame (s : State) (b : Branch) :
    (s.enterIdle b).pinReset = s.pinReset ∧ (s.enterIdle b).supplyReset = s.supplyReset ∧
    (s.enterIdle b).ownAddress = s.ownAddress ∧ (s.enterIdle b).answer = s.answer ∧
    (s.enterIdle b).holdTime = s.holdTime ∧ (s.enterIdle b).lingerTime = s.lingerTime ∧
    (s.enterIdle b).nextAdmission = s.nextAdmission ∧
    (s.enterIdle b).nextDelivery = s.nextDelivery ∧ (s.enterIdle b).attn = s.attn ∧
    (s.enterIdle b).bankA = s.bankA ∧ (s.enterIdle b).bankB = s.bankB ∧
    (s.enterIdle b).live = s.live ∧ (s.enterIdle b).otherRole = s.otherRole ∧
    (s.enterIdle b).generation = s.generation ∧ (s.enterIdle b).drainCount = s.drainCount ∧
    (s.enterIdle b).pendingRestart = s.pendingRestart ∧
    (s.enterIdle b).trunkCounters = s.trunkCounters ∧
    (s.enterIdle b).freeChoices = s.freeChoices ∧ (s.enterIdle b).pending = s.pending := by
  simp [State.enterIdle]

/-- The readings that `enterIdle` leaves as they were. -/
@[simp] theorem enterIdle_reads (s : State) (b : Branch) :
    (∀ k', (s.enterIdle b).bank k' = s.bank k') ∧ (s.enterIdle b).liveBank = s.liveBank ∧
    (s.enterIdle b).otherBank = s.otherBank ∧
    (∀ c', (s.enterIdle b).trunkCount c' = s.trunkCount c') ∧
    (s.enterIdle b).inReset = s.inReset := by
  simp [State.liveBank, State.bank, State.otherBank, State.trunkCount, State.inReset]

end Sys2Proof.Laws
end

