-- ==== Sys2Proof/Laws/CommandFrames.lean ====
section
/-! SUPPORT. The frames of the operations behind the commands: admission, collection, management, the
trunk port, the branch lines and the table events. A frame's parts are simp rules. -/

namespace Sys2Proof.Laws

open Sys2Proof.Machine

/-- What the record supply gives: the state with a slot that is FREE, or with the record of the
earliest DELIVERED slot taken out (R33). -/
theorem supply_cases {s t : State} {i : SlotId} (h : s.supply = some (t, i)) :
    (t = s ∧ s.freeSlot = some i) ∨
      (s.freeSlot = none ∧ s.earliestDelivered = some i ∧ t = s.setRecord i none) := by
  simp only [State.supply] at h
  split at h
  · simp_all
  · split at h
    · simp only [Option.some.injEq, Prod.mk.injEq] at h
      obtain ⟨rfl, rfl⟩ := h
      exact .inr ⟨‹_›, ‹_›, rfl⟩
    · simp at h

/-- What `refuse` leaves as it was. -/
@[simp] theorem refuse_frame (s : State) (t : Telegram) (e : Reason) :
    (s.refuse t e).pinReset = s.pinReset ∧ (s.refuse t e).supplyReset = s.supplyReset ∧
    (s.refuse t e).ownAddress = s.ownAddress ∧ (s.refuse t e).framers = s.framers ∧
    (s.refuse t e).driverEnable = s.driverEnable ∧ (s.refuse t e).holdTime = s.holdTime ∧
    (s.refuse t e).lingerTime = s.lingerTime ∧ (s.refuse t e).slots = s.slots ∧
    (s.refuse t e).nextAdmission = s.nextAdmission ∧
    (s.refuse t e).nextDelivery = s.nextDelivery ∧ (s.refuse t e).attn = s.attn ∧
    (s.refuse t e).bankA = s.bankA ∧ (s.refuse t e).bankB = s.bankB ∧
    (s.refuse t e).live = s.live ∧ (s.refuse t e).otherRole = s.otherRole ∧
    (s.refuse t e).generation = s.generation ∧ (s.refuse t e).drainCount = s.drainCount ∧
    (s.refuse t e).lines = s.lines ∧ (s.refuse t e).pendingRestart = s.pendingRestart ∧
    (s.refuse t e).branchCounters = s.branchCounters ∧
    (s.refuse t e).freeChoices = s.freeChoices ∧ (s.refuse t e).pending = s.pending := by
  simp [State.refuse]

/-- The readings that `refuse` leaves as they were. -/
@[simp] theorem refuse_reads (s : State) (t : Telegram) (e : Reason) :
    (∀ l', (s.refuse t e).framer l' = s.framer l') ∧ (∀ b', (s.refuse t e).line b' = s.line b') ∧
    (∀ i', (s.refuse t e).record i' = s.record i') ∧
    (∀ i', (s.refuse t e).issue i' = s.issue i') ∧
    (∀ i', (s.refuse t e).ticket i' = s.ticket i') ∧ (∀ k', (s.refuse t e).bank k' = s.bank k') ∧
    (s.refuse t e).liveBank = s.liveBank ∧ (s.refuse t e).otherBank = s.otherBank ∧
    (∀ b' c', (s.refuse t e).branchCount b' c' = s.branchCount b' c') ∧
    (∀ p', (s.refuse t e).someRecord p' = s.someRecord p') ∧
    (∀ p', (s.refuse t e).countRecords p' = s.countRecords p') ∧
    (∀ b', (s.refuse t e).activeCount b' = s.activeCount b') ∧
    (∀ k', (s.refuse t e).activeIn k' = s.activeIn k') ∧
    (∀ i', (s.refuse t e).eligible i' = s.eligible i') ∧ (s.refuse t e).inReset = s.inReset := by
  simp
    [State.framer, State.line, State.record, State.issue, State.ticket, State.liveBank,
     State.bank, State.otherBank, State.branchCount, State.someRecord, State.countRecords,
     State.activeCount, State.activeIn, State.eligible, State.heldBack, State.inReset]

/-- What `answerDuplicate` leaves as it was. -/
@[simp] theorem answerDuplicate_frame (s : State) (i : SlotId) (t : Telegram) :
    (s.answerDuplicate i t).pinReset = s.pinReset ∧
    (s.answerDuplicate i t).supplyReset = s.supplyReset ∧
    (s.answerDuplicate i t).ownAddress = s.ownAddress ∧
    (s.answerDuplicate i t).framers = s.framers ∧
    (s.answerDuplicate i t).driverEnable = s.driverEnable ∧
    (s.answerDuplicate i t).holdTime = s.holdTime ∧
    (s.answerDuplicate i t).lingerTime = s.lingerTime ∧ (s.answerDuplicate i t).slots = s.slots ∧
    (s.answerDuplicate i t).nextAdmission = s.nextAdmission ∧
    (s.answerDuplicate i t).nextDelivery = s.nextDelivery ∧
    (s.answerDuplicate i t).attn = s.attn ∧ (s.answerDuplicate i t).bankA = s.bankA ∧
    (s.answerDuplicate i t).bankB = s.bankB ∧ (s.answerDuplicate i t).live = s.live ∧
    (s.answerDuplicate i t).otherRole = s.otherRole ∧
    (s.answerDuplicate i t).generation = s.generation ∧
    (s.answerDuplicate i t).drainCount = s.drainCount ∧ (s.answerDuplicate i t).lines = s.lines ∧
    (s.answerDuplicate i t).pendingRestart = s.pendingRestart ∧
    (s.answerDuplicate i t).branchCounters = s.branchCounters ∧
    (s.answerDuplicate i t).freeChoices = s.freeChoices ∧
    (s.answerDuplicate i t).pending = s.pending := by
  simp [State.answerDuplicate]

/-- The readings that `answerDuplicate` leaves as they were. -/
@[simp] theorem answerDuplicate_reads (s : State) (i : SlotId) (t : Telegram) :
    (∀ l', (s.answerDuplicate i t).framer l' = s.framer l') ∧
    (∀ b', (s.answerDuplicate i t).line b' = s.line b') ∧
    (∀ i', (s.answerDuplicate i t).record i' = s.record i') ∧
    (∀ i', (s.answerDuplicate i t).issue i' = s.issue i') ∧
    (∀ i', (s.answerDuplicate i t).ticket i' = s.ticket i') ∧
    (∀ k', (s.answerDuplicate i t).bank k' = s.bank k') ∧
    (s.answerDuplicate i t).liveBank = s.liveBank ∧
    (s.answerDuplicate i t).otherBank = s.otherBank ∧
    (∀ b' c', (s.answerDuplicate i t).branchCount b' c' = s.branchCount b' c') ∧
    (∀ p', (s.answerDuplicate i t).someRecord p' = s.someRecord p') ∧
    (∀ p', (s.answerDuplicate i t).countRecords p' = s.countRecords p') ∧
    (∀ b', (s.answerDuplicate i t).activeCount b' = s.activeCount b') ∧
    (∀ k', (s.answerDuplicate i t).activeIn k' = s.activeIn k') ∧
    (∀ i', (s.answerDuplicate i t).eligible i' = s.eligible i') ∧
    (s.answerDuplicate i t).inReset = s.inReset := by
  simp
    [State.framer, State.line, State.record, State.issue, State.ticket, State.liveBank,
     State.bank, State.otherBank, State.branchCount, State.someRecord, State.countRecords,
     State.activeCount, State.activeIn, State.eligible, State.heldBack, State.inReset]

/-- What `openRecord` leaves as it was. -/
@[simp] theorem openRecord_frame (s : State) (i : SlotId) (r : Record) (t : Telegram) :
    (s.openRecord i r t).pinReset = s.pinReset ∧
    (s.openRecord i r t).supplyReset = s.supplyReset ∧
    (s.openRecord i r t).ownAddress = s.ownAddress ∧ (s.openRecord i r t).holdTime = s.holdTime ∧
    (s.openRecord i r t).lingerTime = s.lingerTime ∧
    (s.openRecord i r t).nextDelivery = s.nextDelivery ∧ (s.openRecord i r t).attn = s.attn ∧
    (s.openRecord i r t).bankA = s.bankA ∧ (s.openRecord i r t).bankB = s.bankB ∧
    (s.openRecord i r t).live = s.live ∧ (s.openRecord i r t).otherRole = s.otherRole ∧
    (s.openRecord i r t).generation = s.generation ∧
    (s.openRecord i r t).drainCount = s.drainCount ∧
    (s.openRecord i r t).pendingRestart = s.pendingRestart ∧
    (s.openRecord i r t).freeChoices = s.freeChoices ∧
    (s.openRecord i r t).pending = s.pending := by
  simp [State.openRecord]

/-- The readings that `openRecord` leaves as they were. -/
@[simp] theorem openRecord_reads (s : State) (i : SlotId) (r : Record) (t : Telegram) :
    (∀ k', (s.openRecord i r t).bank k' = s.bank k') ∧
    (s.openRecord i r t).liveBank = s.liveBank ∧ (s.openRecord i r t).otherBank = s.otherBank ∧
    (s.openRecord i r t).inReset = s.inReset := by
  simp [State.liveBank, State.bank, State.otherBank, State.inReset]

/-- What `judgeRequest` leaves as it was. -/
@[simp] theorem judgeRequest_frame (s : State) (d : Fin 64) (e : DirEntry) (t : Telegram) :
    (s.judgeRequest d e t).pinReset = s.pinReset ∧ (s.judgeRequest d e t).supplyReset = s.supplyReset ∧
    (s.judgeRequest d e t).ownAddress = s.ownAddress ∧ (s.judgeRequest d e t).holdTime = s.holdTime ∧
    (s.judgeRequest d e t).lingerTime = s.lingerTime ∧ (s.judgeRequest d e t).nextDelivery = s.nextDelivery ∧
    (s.judgeRequest d e t).attn = s.attn ∧ (s.judgeRequest d e t).bankA = s.bankA ∧
    (s.judgeRequest d e t).bankB = s.bankB ∧ (s.judgeRequest d e t).live = s.live ∧
    (s.judgeRequest d e t).otherRole = s.otherRole ∧ (s.judgeRequest d e t).generation = s.generation ∧
    (s.judgeRequest d e t).drainCount = s.drainCount ∧
    (s.judgeRequest d e t).pendingRestart = s.pendingRestart ∧
    (s.judgeRequest d e t).freeChoices = s.freeChoices ∧ (s.judgeRequest d e t).pending = s.pending := by
  simp only [State.judgeRequest]
  split
  · simp
  · split
    · simp
    · split
      · simp
      · split
        · simp
        · split
          · simp
          · rename_i h
            obtain h | h := supply_cases h <;> simp [h]

/-- The readings that `judgeRequest` leaves as they were. -/
@[simp] theorem judgeRequest_reads (s : State) (d : Fin 64) (e : DirEntry) (t : Telegram) :
    (∀ k', (s.judgeRequest d e t).bank k' = s.bank k') ∧ (s.judgeRequest d e t).liveBank = s.liveBank ∧
    (s.judgeRequest d e t).otherBank = s.otherBank ∧ (s.judgeRequest d e t).inReset = s.inReset := by
  simp [State.liveBank, State.bank, State.otherBank, State.inReset]

/-- What `collectFor` leaves as it was. -/
@[simp] theorem collectFor_frame (s : State) (t : Telegram) :
    (s.collectFor t).pinReset = s.pinReset ∧ (s.collectFor t).supplyReset = s.supplyReset ∧
    (s.collectFor t).ownAddress = s.ownAddress ∧ (s.collectFor t).framers = s.framers ∧
    (s.collectFor t).driverEnable = s.driverEnable ∧ (s.collectFor t).holdTime = s.holdTime ∧
    (s.collectFor t).lingerTime = s.lingerTime ∧
    (s.collectFor t).nextAdmission = s.nextAdmission ∧ (s.collectFor t).bankA = s.bankA ∧
    (s.collectFor t).bankB = s.bankB ∧ (s.collectFor t).live = s.live ∧
    (s.collectFor t).otherRole = s.otherRole ∧ (s.collectFor t).generation = s.generation ∧
    (s.collectFor t).drainCount = s.drainCount ∧ (s.collectFor t).lines = s.lines ∧
    (s.collectFor t).pendingRestart = s.pendingRestart ∧
    (s.collectFor t).branchCounters = s.branchCounters ∧
    (s.collectFor t).freeChoices = s.freeChoices ∧ (s.collectFor t).pending = s.pending := by
  simp only [State.collectFor]; (repeat' split) <;> simp

/-- The readings that `collectFor` leaves as they were. -/
@[simp] theorem collectFor_reads (s : State) (t : Telegram) :
    (∀ l', (s.collectFor t).framer l' = s.framer l') ∧
    (∀ b', (s.collectFor t).line b' = s.line b') ∧ (∀ k', (s.collectFor t).bank k' = s.bank k') ∧
    (s.collectFor t).liveBank = s.liveBank ∧ (s.collectFor t).otherBank = s.otherBank ∧
    (∀ b' c', (s.collectFor t).branchCount b' c' = s.branchCount b' c') ∧
    (s.collectFor t).inReset = s.inReset := by
  simp
    [State.framer, State.line, State.liveBank, State.bank, State.otherBank, State.branchCount,
     State.inReset]

/-- What `takeSettings` leaves as it was. -/
@[simp] theorem takeSettings_frame (s : State) (b : Branch) (c : Settings) :
    (s.takeSettings b c).pinReset = s.pinReset ∧
    (s.takeSettings b c).supplyReset = s.supplyReset ∧
    (s.takeSettings b c).ownAddress = s.ownAddress ∧ (s.takeSettings b c).framers = s.framers ∧
    (s.takeSettings b c).driverEnable = s.driverEnable ∧ (s.takeSettings b c).answer = s.answer ∧
    (s.takeSettings b c).holdTime = s.holdTime ∧ (s.takeSettings b c).lingerTime = s.lingerTime ∧
    (s.takeSettings b c).slots = s.slots ∧ (s.takeSettings b c).nextAdmission = s.nextAdmission ∧
    (s.takeSettings b c).nextDelivery = s.nextDelivery ∧ (s.takeSettings b c).attn = s.attn ∧
    (s.takeSettings b c).bankA = s.bankA ∧ (s.takeSettings b c).bankB = s.bankB ∧
    (s.takeSettings b c).live = s.live ∧ (s.takeSettings b c).otherRole = s.otherRole ∧
    (s.takeSettings b c).generation = s.generation ∧
    (s.takeSettings b c).drainCount = s.drainCount ∧
    (s.takeSettings b c).pendingRestart = s.pendingRestart ∧
    (s.takeSettings b c).trunkCounters = s.trunkCounters ∧
    (s.takeSettings b c).branchCounters = s.branchCounters ∧
    (s.takeSettings b c).freeChoices = s.freeChoices ∧
    (s.takeSettings b c).pending = s.pending := by
  simp [State.takeSettings]

/-- The readings that `takeSettings` leaves as they were. -/
@[simp] theorem takeSettings_reads (s : State) (b : Branch) (c : Settings) :
    (∀ l', (s.takeSettings b c).framer l' = s.framer l') ∧
    (∀ i', (s.takeSettings b c).record i' = s.record i') ∧
    (∀ i', (s.takeSettings b c).issue i' = s.issue i') ∧
    (∀ i', (s.takeSettings b c).ticket i' = s.ticket i') ∧
    (∀ k', (s.takeSettings b c).bank k' = s.bank k') ∧
    (s.takeSettings b c).liveBank = s.liveBank ∧ (s.takeSettings b c).otherBank = s.otherBank ∧
    (∀ c', (s.takeSettings b c).trunkCount c' = s.trunkCount c') ∧
    (∀ b' c', (s.takeSettings b c).branchCount b' c' = s.branchCount b' c') ∧
    (∀ p', (s.takeSettings b c).someRecord p' = s.someRecord p') ∧
    (∀ p', (s.takeSettings b c).countRecords p' = s.countRecords p') ∧
    (∀ b', (s.takeSettings b c).activeCount b' = s.activeCount b') ∧
    (∀ k', (s.takeSettings b c).activeIn k' = s.activeIn k') ∧
    (∀ i', (s.takeSettings b c).eligible i' = s.eligible i') ∧
    (s.takeSettings b c).inReset = s.inReset := by
  simp
    [State.framer, State.record, State.issue, State.ticket, State.liveBank, State.bank,
     State.otherBank, State.trunkCount, State.branchCount, State.someRecord,
     State.countRecords, State.activeCount, State.activeIn, State.eligible, State.heldBack,
     State.inReset]

/-- What `disable` leaves as it was. -/
@[simp] theorem disable_frame (s : State) (b : Branch) :
    (s.disable b).pinReset = s.pinReset ∧ (s.disable b).supplyReset = s.supplyReset ∧
    (s.disable b).ownAddress = s.ownAddress ∧ (s.disable b).answer = s.answer ∧
    (s.disable b).holdTime = s.holdTime ∧ (s.disable b).lingerTime = s.lingerTime ∧
    (s.disable b).nextAdmission = s.nextAdmission ∧ (s.disable b).nextDelivery = s.nextDelivery ∧
    (s.disable b).bankA = s.bankA ∧ (s.disable b).bankB = s.bankB ∧ (s.disable b).live = s.live ∧
    (s.disable b).generation = s.generation ∧ (s.disable b).pendingRestart = s.pendingRestart ∧
    (s.disable b).trunkCounters = s.trunkCounters ∧ (s.disable b).freeChoices = s.freeChoices ∧
    (s.disable b).pending = s.pending := by
  simp only [State.disable]; split <;> simp

/-- The readings that `disable` leaves as they were. -/
@[simp] theorem disable_reads (s : State) (b : Branch) :
    (∀ k', (s.disable b).bank k' = s.bank k') ∧ (s.disable b).liveBank = s.liveBank ∧
    (s.disable b).otherBank = s.otherBank ∧
    (∀ c', (s.disable b).trunkCount c' = s.trunkCount c') ∧ (s.disable b).inReset = s.inReset := by
  simp [State.liveBank, State.bank, State.otherBank, State.trunkCount, State.inReset]

/-- What `enable` leaves as it was. -/
@[simp] theorem enable_frame (s : State) (b : Branch) :
    (s.enable b).pinReset = s.pinReset ∧ (s.enable b).supplyReset = s.supplyReset ∧
    (s.enable b).ownAddress = s.ownAddress ∧ (s.enable b).answer = s.answer ∧
    (s.enable b).holdTime = s.holdTime ∧ (s.enable b).lingerTime = s.lingerTime ∧
    (s.enable b).nextAdmission = s.nextAdmission ∧ (s.enable b).nextDelivery = s.nextDelivery ∧
    (s.enable b).attn = s.attn ∧ (s.enable b).bankA = s.bankA ∧ (s.enable b).bankB = s.bankB ∧
    (s.enable b).live = s.live ∧ (s.enable b).otherRole = s.otherRole ∧
    (s.enable b).generation = s.generation ∧ (s.enable b).drainCount = s.drainCount ∧
    (s.enable b).pendingRestart = s.pendingRestart ∧
    (s.enable b).trunkCounters = s.trunkCounters ∧ (s.enable b).freeChoices = s.freeChoices ∧
    (s.enable b).pending = s.pending := by
  simp only [State.enable]; split <;> simp

/-- The readings that `enable` leaves as they were. -/
@[simp] theorem enable_reads (s : State) (b : Branch) :
    (∀ k', (s.enable b).bank k' = s.bank k') ∧ (s.enable b).liveBank = s.liveBank ∧
    (s.enable b).otherBank = s.otherBank ∧ (∀ c', (s.enable b).trunkCount c' = s.trunkCount c') ∧
    (s.enable b).inReset = s.inReset := by
  simp [State.liveBank, State.bank, State.otherBank, State.trunkCount, State.inReset]

/-- What `writeBranch` leaves as it was. -/
@[simp] theorem writeBranch_frame (s : State) (b : Branch) (c : Settings) :
    (s.writeBranch b c).pinReset = s.pinReset ∧ (s.writeBranch b c).supplyReset = s.supplyReset ∧
    (s.writeBranch b c).ownAddress = s.ownAddress ∧ (s.writeBranch b c).answer = s.answer ∧
    (s.writeBranch b c).holdTime = s.holdTime ∧ (s.writeBranch b c).lingerTime = s.lingerTime ∧
    (s.writeBranch b c).nextAdmission = s.nextAdmission ∧
    (s.writeBranch b c).nextDelivery = s.nextDelivery ∧ (s.writeBranch b c).bankA = s.bankA ∧
    (s.writeBranch b c).bankB = s.bankB ∧ (s.writeBranch b c).live = s.live ∧
    (s.writeBranch b c).generation = s.generation ∧
    (s.writeBranch b c).pendingRestart = s.pendingRestart ∧
    (s.writeBranch b c).trunkCounters = s.trunkCounters ∧
    (s.writeBranch b c).freeChoices = s.freeChoices ∧ (s.writeBranch b c).pending = s.pending := by
  simp only [State.writeBranch]; split <;> simp

/-- The readings that `writeBranch` leaves as they were. -/
@[simp] theorem writeBranch_reads (s : State) (b : Branch) (c : Settings) :
    (∀ k', (s.writeBranch b c).bank k' = s.bank k') ∧ (s.writeBranch b c).liveBank = s.liveBank ∧
    (s.writeBranch b c).otherBank = s.otherBank ∧
    (∀ c', (s.writeBranch b c).trunkCount c' = s.trunkCount c') ∧
    (s.writeBranch b c).inReset = s.inReset := by
  simp [State.liveBank, State.bank, State.otherBank, State.trunkCount, State.inReset]

/-- What `promote` leaves as it was. -/
@[simp] theorem promote_frame (s : State) :
    s.promote.pinReset = s.pinReset ∧ s.promote.supplyReset = s.supplyReset ∧
    s.promote.ownAddress = s.ownAddress ∧ s.promote.framers = s.framers ∧
    s.promote.driverEnable = s.driverEnable ∧ s.promote.answer = s.answer ∧
    s.promote.holdTime = s.holdTime ∧ s.promote.lingerTime = s.lingerTime ∧
    s.promote.slots = s.slots ∧ s.promote.nextAdmission = s.nextAdmission ∧
    s.promote.nextDelivery = s.nextDelivery ∧ s.promote.attn = s.attn ∧
    s.promote.bankA = s.bankA ∧ s.promote.bankB = s.bankB ∧ s.promote.lines = s.lines ∧
    s.promote.pendingRestart = s.pendingRestart ∧ s.promote.trunkCounters = s.trunkCounters ∧
    s.promote.branchCounters = s.branchCounters ∧ s.promote.freeChoices = s.freeChoices ∧
    s.promote.pending = s.pending := by
  simp [State.promote]

/-- The readings that `promote` leaves as they were. -/
@[simp] theorem promote_reads (s : State) :
    (∀ l', s.promote.framer l' = s.framer l') ∧ (∀ b', s.promote.line b' = s.line b') ∧
    (∀ i', s.promote.record i' = s.record i') ∧ (∀ i', s.promote.issue i' = s.issue i') ∧
    (∀ i', s.promote.ticket i' = s.ticket i') ∧ (∀ k', s.promote.bank k' = s.bank k') ∧
    (∀ c', s.promote.trunkCount c' = s.trunkCount c') ∧
    (∀ b' c', s.promote.branchCount b' c' = s.branchCount b' c') ∧
    (∀ p', s.promote.someRecord p' = s.someRecord p') ∧
    (∀ p', s.promote.countRecords p' = s.countRecords p') ∧
    (∀ b', s.promote.activeCount b' = s.activeCount b') ∧
    (∀ k', s.promote.activeIn k' = s.activeIn k') ∧
    (∀ i', s.promote.eligible i' = s.eligible i') ∧ s.promote.inReset = s.inReset := by
  simp
    [State.framer, State.line, State.record, State.issue, State.ticket, State.trunkCount,
     State.branchCount, State.someRecord, State.countRecords, State.activeCount,
     State.activeIn, State.eligible, State.heldBack, State.inReset, State.bank]

/-- What `clearCounters` leaves as it was. -/
@[simp] theorem clearCounters_frame (s : State) (n : Nat) :
    (s.clearCounters n).pinReset = s.pinReset ∧ (s.clearCounters n).supplyReset = s.supplyReset ∧
    (s.clearCounters n).ownAddress = s.ownAddress ∧ (s.clearCounters n).framers = s.framers ∧
    (s.clearCounters n).driverEnable = s.driverEnable ∧ (s.clearCounters n).answer = s.answer ∧
    (s.clearCounters n).holdTime = s.holdTime ∧ (s.clearCounters n).lingerTime = s.lingerTime ∧
    (s.clearCounters n).slots = s.slots ∧ (s.clearCounters n).nextAdmission = s.nextAdmission ∧
    (s.clearCounters n).nextDelivery = s.nextDelivery ∧ (s.clearCounters n).attn = s.attn ∧
    (s.clearCounters n).bankA = s.bankA ∧ (s.clearCounters n).bankB = s.bankB ∧
    (s.clearCounters n).live = s.live ∧ (s.clearCounters n).otherRole = s.otherRole ∧
    (s.clearCounters n).generation = s.generation ∧
    (s.clearCounters n).drainCount = s.drainCount ∧ (s.clearCounters n).lines = s.lines ∧
    (s.clearCounters n).pendingRestart = s.pendingRestart ∧
    (s.clearCounters n).freeChoices = s.freeChoices ∧ (s.clearCounters n).pending = s.pending := by
  simp only [State.clearCounters]; split <;> simp

/-- The readings that `clearCounters` leaves as they were. -/
@[simp] theorem clearCounters_reads (s : State) (n : Nat) :
    (∀ l', (s.clearCounters n).framer l' = s.framer l') ∧
    (∀ b', (s.clearCounters n).line b' = s.line b') ∧
    (∀ i', (s.clearCounters n).record i' = s.record i') ∧
    (∀ i', (s.clearCounters n).issue i' = s.issue i') ∧
    (∀ i', (s.clearCounters n).ticket i' = s.ticket i') ∧
    (∀ k', (s.clearCounters n).bank k' = s.bank k') ∧ (s.clearCounters n).liveBank = s.liveBank ∧
    (s.clearCounters n).otherBank = s.otherBank ∧
    (∀ p', (s.clearCounters n).someRecord p' = s.someRecord p') ∧
    (∀ p', (s.clearCounters n).countRecords p' = s.countRecords p') ∧
    (∀ b', (s.clearCounters n).activeCount b' = s.activeCount b') ∧
    (∀ k', (s.clearCounters n).activeIn k' = s.activeIn k') ∧
    (∀ i', (s.clearCounters n).eligible i' = s.eligible i') ∧
    (s.clearCounters n).inReset = s.inReset := by
  simp
    [State.framer, State.line, State.record, State.issue, State.ticket, State.liveBank,
     State.bank, State.otherBank, State.someRecord, State.countRecords, State.activeCount,
     State.activeIn, State.eligible, State.heldBack, State.inReset]

/-- What `answerReply` leaves as it was. -/
@[simp] theorem answerReply_frame (s : State) (t : Telegram) (y : Reply) :
    (s.answerReply t y).pinReset = s.pinReset ∧ (s.answerReply t y).supplyReset = s.supplyReset ∧
    (s.answerReply t y).ownAddress = s.ownAddress ∧ (s.answerReply t y).framers = s.framers ∧
    (s.answerReply t y).driverEnable = s.driverEnable ∧
    (s.answerReply t y).holdTime = s.holdTime ∧ (s.answerReply t y).lingerTime = s.lingerTime ∧
    (s.answerReply t y).slots = s.slots ∧ (s.answerReply t y).nextAdmission = s.nextAdmission ∧
    (s.answerReply t y).nextDelivery = s.nextDelivery ∧ (s.answerReply t y).attn = s.attn ∧
    (s.answerReply t y).bankA = s.bankA ∧ (s.answerReply t y).bankB = s.bankB ∧
    (s.answerReply t y).live = s.live ∧ (s.answerReply t y).otherRole = s.otherRole ∧
    (s.answerReply t y).generation = s.generation ∧
    (s.answerReply t y).drainCount = s.drainCount ∧ (s.answerReply t y).lines = s.lines ∧
    (s.answerReply t y).pendingRestart = s.pendingRestart ∧
    (s.answerReply t y).branchCounters = s.branchCounters ∧
    (s.answerReply t y).freeChoices = s.freeChoices ∧ (s.answerReply t y).pending = s.pending := by
  cases y <;> simp [State.answerReply]

/-- The readings that `answerReply` leaves as they were. -/
@[simp] theorem answerReply_reads (s : State) (t : Telegram) (y : Reply) :
    (∀ l', (s.answerReply t y).framer l' = s.framer l') ∧
    (∀ b', (s.answerReply t y).line b' = s.line b') ∧
    (∀ i', (s.answerReply t y).record i' = s.record i') ∧
    (∀ i', (s.answerReply t y).issue i' = s.issue i') ∧
    (∀ i', (s.answerReply t y).ticket i' = s.ticket i') ∧
    (∀ k', (s.answerReply t y).bank k' = s.bank k') ∧ (s.answerReply t y).liveBank = s.liveBank ∧
    (s.answerReply t y).otherBank = s.otherBank ∧
    (∀ b' c', (s.answerReply t y).branchCount b' c' = s.branchCount b' c') ∧
    (∀ p', (s.answerReply t y).someRecord p' = s.someRecord p') ∧
    (∀ p', (s.answerReply t y).countRecords p' = s.countRecords p') ∧
    (∀ b', (s.answerReply t y).activeCount b' = s.activeCount b') ∧
    (∀ k', (s.answerReply t y).activeIn k' = s.activeIn k') ∧
    (∀ i', (s.answerReply t y).eligible i' = s.eligible i') ∧
    (s.answerReply t y).inReset = s.inReset := by
  simp
    [State.framer, State.line, State.record, State.issue, State.ticket, State.liveBank,
     State.bank, State.otherBank, State.branchCount, State.someRecord, State.countRecords,
     State.activeCount, State.activeIn, State.eligible, State.heldBack, State.inReset]

/-- What `offerBroadcast` leaves as it was. -/
@[simp] theorem offerBroadcast_frame (s : State) (bc : Broadcast) (b : Branch) :
    (s.offerBroadcast bc b).pinReset = s.pinReset ∧
    (s.offerBroadcast bc b).supplyReset = s.supplyReset ∧
    (s.offerBroadcast bc b).ownAddress = s.ownAddress ∧
    (s.offerBroadcast bc b).answer = s.answer ∧ (s.offerBroadcast bc b).holdTime = s.holdTime ∧
    (s.offerBroadcast bc b).lingerTime = s.lingerTime ∧
    (s.offerBroadcast bc b).nextAdmission = s.nextAdmission ∧
    (s.offerBroadcast bc b).nextDelivery = s.nextDelivery ∧
    (s.offerBroadcast bc b).attn = s.attn ∧ (s.offerBroadcast bc b).bankA = s.bankA ∧
    (s.offerBroadcast bc b).bankB = s.bankB ∧ (s.offerBroadcast bc b).live = s.live ∧
    (s.offerBroadcast bc b).otherRole = s.otherRole ∧
    (s.offerBroadcast bc b).generation = s.generation ∧
    (s.offerBroadcast bc b).drainCount = s.drainCount ∧
    (s.offerBroadcast bc b).pendingRestart = s.pendingRestart ∧
    (s.offerBroadcast bc b).trunkCounters = s.trunkCounters ∧
    (s.offerBroadcast bc b).freeChoices = s.freeChoices ∧
    (s.offerBroadcast bc b).pending = s.pending := by
  simp only [State.offerBroadcast]; split <;> simp

/-- The readings that `offerBroadcast` leaves as they were. -/
@[simp] theorem offerBroadcast_reads (s : State) (bc : Broadcast) (b : Branch) :
    (∀ k', (s.offerBroadcast bc b).bank k' = s.bank k') ∧
    (s.offerBroadcast bc b).liveBank = s.liveBank ∧
    (s.offerBroadcast bc b).otherBank = s.otherBank ∧
    (∀ c', (s.offerBroadcast bc b).trunkCount c' = s.trunkCount c') ∧
    (s.offerBroadcast bc b).inReset = s.inReset := by
  simp [State.liveBank, State.bank, State.otherBank, State.trunkCount, State.inReset]

/-- What `relayBroadcast` leaves as it was. -/
@[simp] theorem relayBroadcast_frame (s : State) (bc : Broadcast) :
    (s.relayBroadcast bc).pinReset = s.pinReset ∧
    (s.relayBroadcast bc).supplyReset = s.supplyReset ∧
    (s.relayBroadcast bc).ownAddress = s.ownAddress ∧ (s.relayBroadcast bc).answer = s.answer ∧
    (s.relayBroadcast bc).holdTime = s.holdTime ∧
    (s.relayBroadcast bc).lingerTime = s.lingerTime ∧
    (s.relayBroadcast bc).nextAdmission = s.nextAdmission ∧
    (s.relayBroadcast bc).nextDelivery = s.nextDelivery ∧ (s.relayBroadcast bc).attn = s.attn ∧
    (s.relayBroadcast bc).bankA = s.bankA ∧ (s.relayBroadcast bc).bankB = s.bankB ∧
    (s.relayBroadcast bc).live = s.live ∧ (s.relayBroadcast bc).otherRole = s.otherRole ∧
    (s.relayBroadcast bc).generation = s.generation ∧
    (s.relayBroadcast bc).drainCount = s.drainCount ∧
    (s.relayBroadcast bc).pendingRestart = s.pendingRestart ∧
    (s.relayBroadcast bc).trunkCounters = s.trunkCounters ∧
    (s.relayBroadcast bc).freeChoices = s.freeChoices ∧
    (s.relayBroadcast bc).pending = s.pending :=
  ⟨foldl_keeps State.pinReset (fun s b => by simp) _ s,
   foldl_keeps State.supplyReset (fun s b => by simp) _ s,
   foldl_keeps State.ownAddress (fun s b => by simp) _ s,
   foldl_keeps State.answer (fun s b => by simp) _ s,
   foldl_keeps State.holdTime (fun s b => by simp) _ s,
   foldl_keeps State.lingerTime (fun s b => by simp) _ s,
   foldl_keeps State.nextAdmission (fun s b => by simp) _ s,
   foldl_keeps State.nextDelivery (fun s b => by simp) _ s,
   foldl_keeps State.attn (fun s b => by simp) _ s,
   foldl_keeps State.bankA (fun s b => by simp) _ s,
   foldl_keeps State.bankB (fun s b => by simp) _ s,
   foldl_keeps State.live (fun s b => by simp) _ s,
   foldl_keeps State.otherRole (fun s b => by simp) _ s,
   foldl_keeps State.generation (fun s b => by simp) _ s,
   foldl_keeps State.drainCount (fun s b => by simp) _ s,
   foldl_keeps State.pendingRestart (fun s b => by simp) _ s,
   foldl_keeps State.trunkCounters (fun s b => by simp) _ s,
   foldl_keeps State.freeChoices (fun s b => by simp) _ s,
   foldl_keeps State.pending (fun s b => by simp) _ s⟩

/-- The readings that `relayBroadcast` leaves as they were. -/
@[simp] theorem relayBroadcast_reads (s : State) (bc : Broadcast) :
    (∀ k', (s.relayBroadcast bc).bank k' = s.bank k') ∧
    (s.relayBroadcast bc).liveBank = s.liveBank ∧ (s.relayBroadcast bc).otherBank = s.otherBank ∧
    (∀ c', (s.relayBroadcast bc).trunkCount c' = s.trunkCount c') ∧
    (s.relayBroadcast bc).inReset = s.inReset := by
  simp [State.liveBank, State.bank, State.otherBank, State.trunkCount, State.inReset]

/-- What `restartTurnaround` leaves as it was. -/
@[simp] theorem restartTurnaround_frame (s : State) (l : Line) :
    (s.restartTurnaround l).pinReset = s.pinReset ∧
    (s.restartTurnaround l).supplyReset = s.supplyReset ∧
    (s.restartTurnaround l).ownAddress = s.ownAddress ∧
    (s.restartTurnaround l).framers = s.framers ∧
    (s.restartTurnaround l).driverEnable = s.driverEnable ∧
    (s.restartTurnaround l).holdTime = s.holdTime ∧
    (s.restartTurnaround l).lingerTime = s.lingerTime ∧ (s.restartTurnaround l).slots = s.slots ∧
    (s.restartTurnaround l).nextAdmission = s.nextAdmission ∧
    (s.restartTurnaround l).nextDelivery = s.nextDelivery ∧
    (s.restartTurnaround l).attn = s.attn ∧ (s.restartTurnaround l).bankA = s.bankA ∧
    (s.restartTurnaround l).bankB = s.bankB ∧ (s.restartTurnaround l).live = s.live ∧
    (s.restartTurnaround l).otherRole = s.otherRole ∧
    (s.restartTurnaround l).generation = s.generation ∧
    (s.restartTurnaround l).drainCount = s.drainCount ∧ (s.restartTurnaround l).lines = s.lines ∧
    (s.restartTurnaround l).pendingRestart = s.pendingRestart ∧
    (s.restartTurnaround l).trunkCounters = s.trunkCounters ∧
    (s.restartTurnaround l).branchCounters = s.branchCounters ∧
    (s.restartTurnaround l).freeChoices = s.freeChoices ∧
    (s.restartTurnaround l).pending = s.pending := by
  simp only [State.restartTurnaround]; (repeat' split) <;> simp

/-- The readings that `restartTurnaround` leaves as they were. -/
@[simp] theorem restartTurnaround_reads (s : State) (l : Line) :
    (∀ l', (s.restartTurnaround l).framer l' = s.framer l') ∧
    (∀ b', (s.restartTurnaround l).line b' = s.line b') ∧
    (∀ i', (s.restartTurnaround l).record i' = s.record i') ∧
    (∀ i', (s.restartTurnaround l).issue i' = s.issue i') ∧
    (∀ i', (s.restartTurnaround l).ticket i' = s.ticket i') ∧
    (∀ k', (s.restartTurnaround l).bank k' = s.bank k') ∧
    (s.restartTurnaround l).liveBank = s.liveBank ∧
    (s.restartTurnaround l).otherBank = s.otherBank ∧
    (∀ c', (s.restartTurnaround l).trunkCount c' = s.trunkCount c') ∧
    (∀ b' c', (s.restartTurnaround l).branchCount b' c' = s.branchCount b' c') ∧
    (∀ p', (s.restartTurnaround l).someRecord p' = s.someRecord p') ∧
    (∀ p', (s.restartTurnaround l).countRecords p' = s.countRecords p') ∧
    (∀ b', (s.restartTurnaround l).activeCount b' = s.activeCount b') ∧
    (∀ k', (s.restartTurnaround l).activeIn k' = s.activeIn k') ∧
    (∀ i', (s.restartTurnaround l).eligible i' = s.eligible i') ∧
    (s.restartTurnaround l).inReset = s.inReset := by
  simp
    [State.framer, State.line, State.record, State.issue, State.ticket, State.liveBank,
     State.bank, State.otherBank, State.trunkCount, State.branchCount, State.someRecord,
     State.countRecords, State.activeCount, State.activeIn, State.eligible, State.heldBack,
     State.inReset]

/-- What `sendAnswer` leaves as it was. -/
@[simp] theorem sendAnswer_frame (s : State) :
    s.sendAnswer.pinReset = s.pinReset ∧ s.sendAnswer.supplyReset = s.supplyReset ∧
    s.sendAnswer.ownAddress = s.ownAddress ∧ s.sendAnswer.holdTime = s.holdTime ∧
    s.sendAnswer.lingerTime = s.lingerTime ∧ s.sendAnswer.slots = s.slots ∧
    s.sendAnswer.nextAdmission = s.nextAdmission ∧ s.sendAnswer.nextDelivery = s.nextDelivery ∧
    s.sendAnswer.attn = s.attn ∧ s.sendAnswer.bankA = s.bankA ∧ s.sendAnswer.bankB = s.bankB ∧
    s.sendAnswer.live = s.live ∧ s.sendAnswer.otherRole = s.otherRole ∧
    s.sendAnswer.generation = s.generation ∧ s.sendAnswer.drainCount = s.drainCount ∧
    s.sendAnswer.lines = s.lines ∧ s.sendAnswer.pendingRestart = s.pendingRestart ∧
    s.sendAnswer.freeChoices = s.freeChoices ∧ s.sendAnswer.pending = s.pending := by
  simp only [State.sendAnswer]; split <;> simp

/-- The readings that `sendAnswer` leaves as they were. -/
@[simp] theorem sendAnswer_reads (s : State) :
    (∀ b', s.sendAnswer.line b' = s.line b') ∧ (∀ i', s.sendAnswer.record i' = s.record i') ∧
    (∀ i', s.sendAnswer.issue i' = s.issue i') ∧ (∀ i', s.sendAnswer.ticket i' = s.ticket i') ∧
    (∀ k', s.sendAnswer.bank k' = s.bank k') ∧ s.sendAnswer.liveBank = s.liveBank ∧
    s.sendAnswer.otherBank = s.otherBank ∧ (∀ p', s.sendAnswer.someRecord p' = s.someRecord p') ∧
    (∀ p', s.sendAnswer.countRecords p' = s.countRecords p') ∧
    (∀ b', s.sendAnswer.activeCount b' = s.activeCount b') ∧
    (∀ k', s.sendAnswer.activeIn k' = s.activeIn k') ∧
    (∀ i', s.sendAnswer.eligible i' = s.eligible i') ∧ s.sendAnswer.inReset = s.inReset := by
  simp
    [State.line, State.record, State.issue, State.ticket, State.liveBank, State.bank,
     State.otherBank, State.someRecord, State.countRecords, State.activeCount, State.activeIn,
     State.eligible, State.heldBack, State.inReset]

/-- What `acceptAnswer` leaves as it was. -/
@[simp] theorem acceptAnswer_frame (s : State) (b : Branch) (x : Exchange) (t : Telegram) :
    (s.acceptAnswer b x t).pinReset = s.pinReset ∧
    (s.acceptAnswer b x t).supplyReset = s.supplyReset ∧
    (s.acceptAnswer b x t).ownAddress = s.ownAddress ∧
    (s.acceptAnswer b x t).framers = s.framers ∧
    (s.acceptAnswer b x t).driverEnable = s.driverEnable ∧
    (s.acceptAnswer b x t).answer = s.answer ∧ (s.acceptAnswer b x t).holdTime = s.holdTime ∧
    (s.acceptAnswer b x t).lingerTime = s.lingerTime ∧
    (s.acceptAnswer b x t).nextAdmission = s.nextAdmission ∧
    (s.acceptAnswer b x t).nextDelivery = s.nextDelivery ∧
    (s.acceptAnswer b x t).bankA = s.bankA ∧ (s.acceptAnswer b x t).bankB = s.bankB ∧
    (s.acceptAnswer b x t).live = s.live ∧ (s.acceptAnswer b x t).generation = s.generation ∧
    (s.acceptAnswer b x t).pendingRestart = s.pendingRestart ∧
    (s.acceptAnswer b x t).trunkCounters = s.trunkCounters ∧
    (s.acceptAnswer b x t).freeChoices = s.freeChoices ∧
    (s.acceptAnswer b x t).pending = s.pending := by
  simp only [State.acceptAnswer]; split <;> simp

/-- The readings that `acceptAnswer` leaves as they were. -/
@[simp] theorem acceptAnswer_reads (s : State) (b : Branch) (x : Exchange) (t : Telegram) :
    (∀ l', (s.acceptAnswer b x t).framer l' = s.framer l') ∧
    (∀ k', (s.acceptAnswer b x t).bank k' = s.bank k') ∧
    (s.acceptAnswer b x t).liveBank = s.liveBank ∧
    (s.acceptAnswer b x t).otherBank = s.otherBank ∧
    (∀ c', (s.acceptAnswer b x t).trunkCount c' = s.trunkCount c') ∧
    (s.acceptAnswer b x t).inReset = s.inReset := by
  simp
    [State.framer, State.liveBank, State.bank, State.otherBank, State.trunkCount, State.inReset]

/-- What `rejectAnswer` leaves as it was. -/
@[simp] theorem rejectAnswer_frame (s : State) (b : Branch) (x : Exchange) :
    (s.rejectAnswer b x).pinReset = s.pinReset ∧
    (s.rejectAnswer b x).supplyReset = s.supplyReset ∧
    (s.rejectAnswer b x).ownAddress = s.ownAddress ∧ (s.rejectAnswer b x).answer = s.answer ∧
    (s.rejectAnswer b x).holdTime = s.holdTime ∧ (s.rejectAnswer b x).lingerTime = s.lingerTime ∧
    (s.rejectAnswer b x).nextAdmission = s.nextAdmission ∧
    (s.rejectAnswer b x).nextDelivery = s.nextDelivery ∧ (s.rejectAnswer b x).bankA = s.bankA ∧
    (s.rejectAnswer b x).bankB = s.bankB ∧ (s.rejectAnswer b x).live = s.live ∧
    (s.rejectAnswer b x).generation = s.generation ∧
    (s.rejectAnswer b x).pendingRestart = s.pendingRestart ∧
    (s.rejectAnswer b x).trunkCounters = s.trunkCounters ∧
    (s.rejectAnswer b x).freeChoices = s.freeChoices ∧
    (s.rejectAnswer b x).pending = s.pending := by
  simp only [State.rejectAnswer]; split <;> simp

/-- The readings that `rejectAnswer` leaves as they were. -/
@[simp] theorem rejectAnswer_reads (s : State) (b : Branch) (x : Exchange) :
    (∀ k', (s.rejectAnswer b x).bank k' = s.bank k') ∧
    (s.rejectAnswer b x).liveBank = s.liveBank ∧ (s.rejectAnswer b x).otherBank = s.otherBank ∧
    (∀ c', (s.rejectAnswer b x).trunkCount c' = s.trunkCount c') ∧
    (s.rejectAnswer b x).inReset = s.inReset := by
  simp [State.liveBank, State.bank, State.otherBank, State.trunkCount, State.inReset]

/-- What `branchTake` leaves as it was. -/
@[simp] theorem branchTake_frame (s : State) (b : Branch) (t : Telegram) :
    (s.branchTake b t).pinReset = s.pinReset ∧ (s.branchTake b t).supplyReset = s.supplyReset ∧
    (s.branchTake b t).ownAddress = s.ownAddress ∧ (s.branchTake b t).answer = s.answer ∧
    (s.branchTake b t).holdTime = s.holdTime ∧ (s.branchTake b t).lingerTime = s.lingerTime ∧
    (s.branchTake b t).nextAdmission = s.nextAdmission ∧
    (s.branchTake b t).nextDelivery = s.nextDelivery ∧ (s.branchTake b t).bankA = s.bankA ∧
    (s.branchTake b t).bankB = s.bankB ∧ (s.branchTake b t).live = s.live ∧
    (s.branchTake b t).generation = s.generation ∧
    (s.branchTake b t).pendingRestart = s.pendingRestart ∧
    (s.branchTake b t).trunkCounters = s.trunkCounters ∧
    (s.branchTake b t).freeChoices = s.freeChoices ∧ (s.branchTake b t).pending = s.pending := by
  simp only [State.branchTake]; (repeat' split) <;> simp

/-- The readings that `branchTake` leaves as they were. -/
@[simp] theorem branchTake_reads (s : State) (b : Branch) (t : Telegram) :
    (∀ k', (s.branchTake b t).bank k' = s.bank k') ∧ (s.branchTake b t).liveBank = s.liveBank ∧
    (s.branchTake b t).otherBank = s.otherBank ∧
    (∀ c', (s.branchTake b t).trunkCount c' = s.trunkCount c') ∧
    (s.branchTake b t).inReset = s.inReset := by
  simp [State.liveBank, State.bank, State.otherBank, State.trunkCount, State.inReset]

/-- What `transmissionDone` leaves as it was. -/
@[simp] theorem transmissionDone_frame (s : State) (b : Branch) :
    (s.transmissionDone b).pinReset = s.pinReset ∧
    (s.transmissionDone b).supplyReset = s.supplyReset ∧
    (s.transmissionDone b).ownAddress = s.ownAddress ∧ (s.transmissionDone b).answer = s.answer ∧
    (s.transmissionDone b).holdTime = s.holdTime ∧
    (s.transmissionDone b).lingerTime = s.lingerTime ∧ (s.transmissionDone b).slots = s.slots ∧
    (s.transmissionDone b).nextAdmission = s.nextAdmission ∧
    (s.transmissionDone b).nextDelivery = s.nextDelivery ∧ (s.transmissionDone b).attn = s.attn ∧
    (s.transmissionDone b).bankA = s.bankA ∧ (s.transmissionDone b).bankB = s.bankB ∧
    (s.transmissionDone b).live = s.live ∧ (s.transmissionDone b).otherRole = s.otherRole ∧
    (s.transmissionDone b).generation = s.generation ∧
    (s.transmissionDone b).drainCount = s.drainCount ∧
    (s.transmissionDone b).pendingRestart = s.pendingRestart ∧
    (s.transmissionDone b).trunkCounters = s.trunkCounters ∧
    (s.transmissionDone b).freeChoices = s.freeChoices ∧
    (s.transmissionDone b).pending = s.pending := by
  simp only [State.transmissionDone]; (repeat' split) <;> simp

/-- The readings that `transmissionDone` leaves as they were. -/
@[simp] theorem transmissionDone_reads (s : State) (b : Branch) :
    (∀ i', (s.transmissionDone b).record i' = s.record i') ∧
    (∀ i', (s.transmissionDone b).issue i' = s.issue i') ∧
    (∀ i', (s.transmissionDone b).ticket i' = s.ticket i') ∧
    (∀ k', (s.transmissionDone b).bank k' = s.bank k') ∧
    (s.transmissionDone b).liveBank = s.liveBank ∧
    (s.transmissionDone b).otherBank = s.otherBank ∧
    (∀ c', (s.transmissionDone b).trunkCount c' = s.trunkCount c') ∧
    (∀ p', (s.transmissionDone b).someRecord p' = s.someRecord p') ∧
    (∀ p', (s.transmissionDone b).countRecords p' = s.countRecords p') ∧
    (∀ b', (s.transmissionDone b).activeCount b' = s.activeCount b') ∧
    (∀ k', (s.transmissionDone b).activeIn k' = s.activeIn k') ∧
    (∀ i', (s.transmissionDone b).eligible i' = s.eligible i') ∧
    (s.transmissionDone b).inReset = s.inReset := by
  simp
    [State.record, State.issue, State.ticket, State.liveBank, State.bank, State.otherBank,
     State.trunkCount, State.someRecord, State.countRecords, State.activeCount, State.activeIn,
     State.eligible, State.heldBack, State.inReset]

/-- What `attemptFailed` leaves as it was. -/
@[simp] theorem attemptFailed_frame (s : State) (b : Branch) (a : Attempt) :
    (s.attemptFailed b a).pinReset = s.pinReset ∧
    (s.attemptFailed b a).supplyReset = s.supplyReset ∧
    (s.attemptFailed b a).ownAddress = s.ownAddress ∧ (s.attemptFailed b a).answer = s.answer ∧
    (s.attemptFailed b a).holdTime = s.holdTime ∧
    (s.attemptFailed b a).lingerTime = s.lingerTime ∧
    (s.attemptFailed b a).nextAdmission = s.nextAdmission ∧
    (s.attemptFailed b a).nextDelivery = s.nextDelivery ∧ (s.attemptFailed b a).bankA = s.bankA ∧
    (s.attemptFailed b a).bankB = s.bankB ∧ (s.attemptFailed b a).live = s.live ∧
    (s.attemptFailed b a).generation = s.generation ∧
    (s.attemptFailed b a).pendingRestart = s.pendingRestart ∧
    (s.attemptFailed b a).trunkCounters = s.trunkCounters ∧
    (s.attemptFailed b a).freeChoices = s.freeChoices ∧
    (s.attemptFailed b a).pending = s.pending := by
  simp only [State.attemptFailed]; (repeat' split) <;> simp

/-- The readings that `attemptFailed` leaves as they were. -/
@[simp] theorem attemptFailed_reads (s : State) (b : Branch) (a : Attempt) :
    (∀ k', (s.attemptFailed b a).bank k' = s.bank k') ∧
    (s.attemptFailed b a).liveBank = s.liveBank ∧ (s.attemptFailed b a).otherBank = s.otherBank ∧
    (∀ c', (s.attemptFailed b a).trunkCount c' = s.trunkCount c') ∧
    (s.attemptFailed b a).inReset = s.inReset := by
  simp [State.liveBank, State.bank, State.otherBank, State.trunkCount, State.inReset]

/-- What `echoFault` leaves as it was. -/
@[simp] theorem echoFault_frame (s : State) (b : Branch) :
    (s.echoFault b).pinReset = s.pinReset ∧ (s.echoFault b).supplyReset = s.supplyReset ∧
    (s.echoFault b).ownAddress = s.ownAddress ∧ (s.echoFault b).answer = s.answer ∧
    (s.echoFault b).holdTime = s.holdTime ∧ (s.echoFault b).lingerTime = s.lingerTime ∧
    (s.echoFault b).nextAdmission = s.nextAdmission ∧
    (s.echoFault b).nextDelivery = s.nextDelivery ∧ (s.echoFault b).bankA = s.bankA ∧
    (s.echoFault b).bankB = s.bankB ∧ (s.echoFault b).live = s.live ∧
    (s.echoFault b).generation = s.generation ∧
    (s.echoFault b).pendingRestart = s.pendingRestart ∧
    (s.echoFault b).trunkCounters = s.trunkCounters ∧
    (s.echoFault b).freeChoices = s.freeChoices ∧ (s.echoFault b).pending = s.pending := by
  simp only [State.echoFault]; (repeat' split) <;> simp

/-- The readings that `echoFault` leaves as they were. -/
@[simp] theorem echoFault_reads (s : State) (b : Branch) :
    (∀ k', (s.echoFault b).bank k' = s.bank k') ∧ (s.echoFault b).liveBank = s.liveBank ∧
    (s.echoFault b).otherBank = s.otherBank ∧
    (∀ c', (s.echoFault b).trunkCount c' = s.trunkCount c') ∧
    (s.echoFault b).inReset = s.inReset := by
  simp [State.liveBank, State.bank, State.otherBank, State.trunkCount, State.inReset]

/-- What `windowExpired` leaves as it was. -/
@[simp] theorem windowExpired_frame (s : State) (b : Branch) :
    (s.windowExpired b).pinReset = s.pinReset ∧ (s.windowExpired b).supplyReset = s.supplyReset ∧
    (s.windowExpired b).ownAddress = s.ownAddress ∧ (s.windowExpired b).answer = s.answer ∧
    (s.windowExpired b).holdTime = s.holdTime ∧ (s.windowExpired b).lingerTime = s.lingerTime ∧
    (s.windowExpired b).nextAdmission = s.nextAdmission ∧
    (s.windowExpired b).nextDelivery = s.nextDelivery ∧ (s.windowExpired b).bankA = s.bankA ∧
    (s.windowExpired b).bankB = s.bankB ∧ (s.windowExpired b).live = s.live ∧
    (s.windowExpired b).generation = s.generation ∧
    (s.windowExpired b).pendingRestart = s.pendingRestart ∧
    (s.windowExpired b).trunkCounters = s.trunkCounters ∧
    (s.windowExpired b).freeChoices = s.freeChoices ∧ (s.windowExpired b).pending = s.pending := by
  simp only [State.windowExpired]; (repeat' split) <;> simp

/-- The readings that `windowExpired` leaves as they were. -/
@[simp] theorem windowExpired_reads (s : State) (b : Branch) :
    (∀ k', (s.windowExpired b).bank k' = s.bank k') ∧ (s.windowExpired b).liveBank = s.liveBank ∧
    (s.windowExpired b).otherBank = s.otherBank ∧
    (∀ c', (s.windowExpired b).trunkCount c' = s.trunkCount c') ∧
    (s.windowExpired b).inReset = s.inReset := by
  simp [State.liveBank, State.bank, State.otherBank, State.trunkCount, State.inReset]

/-- What `settled` leaves as it was. -/
@[simp] theorem settled_frame (s : State) (b : Branch) :
    (s.settled b).pinReset = s.pinReset ∧ (s.settled b).supplyReset = s.supplyReset ∧
    (s.settled b).ownAddress = s.ownAddress ∧ (s.settled b).answer = s.answer ∧
    (s.settled b).holdTime = s.holdTime ∧ (s.settled b).lingerTime = s.lingerTime ∧
    (s.settled b).nextAdmission = s.nextAdmission ∧ (s.settled b).nextDelivery = s.nextDelivery ∧
    (s.settled b).attn = s.attn ∧ (s.settled b).bankA = s.bankA ∧ (s.settled b).bankB = s.bankB ∧
    (s.settled b).live = s.live ∧ (s.settled b).otherRole = s.otherRole ∧
    (s.settled b).generation = s.generation ∧ (s.settled b).drainCount = s.drainCount ∧
    (s.settled b).pendingRestart = s.pendingRestart ∧
    (s.settled b).trunkCounters = s.trunkCounters ∧ (s.settled b).freeChoices = s.freeChoices ∧
    (s.settled b).pending = s.pending := by
  simp only [State.settled]; split <;> simp

/-- The readings that `settled` leaves as they were. -/
@[simp] theorem settled_reads (s : State) (b : Branch) :
    (∀ k', (s.settled b).bank k' = s.bank k') ∧ (s.settled b).liveBank = s.liveBank ∧
    (s.settled b).otherBank = s.otherBank ∧
    (∀ c', (s.settled b).trunkCount c' = s.trunkCount c') ∧ (s.settled b).inReset = s.inReset := by
  simp [State.liveBank, State.bank, State.otherBank, State.trunkCount, State.inReset]

/-- What `compareEcho` leaves as it was. -/
@[simp] theorem compareEcho_frame (s : State) (b : Branch) (os es : List Octet) (o : Octet) (z : Bool) :
    (s.compareEcho b os es o z).pinReset = s.pinReset ∧
    (s.compareEcho b os es o z).supplyReset = s.supplyReset ∧
    (s.compareEcho b os es o z).ownAddress = s.ownAddress ∧
    (s.compareEcho b os es o z).answer = s.answer ∧
    (s.compareEcho b os es o z).holdTime = s.holdTime ∧
    (s.compareEcho b os es o z).lingerTime = s.lingerTime ∧
    (s.compareEcho b os es o z).nextAdmission = s.nextAdmission ∧
    (s.compareEcho b os es o z).nextDelivery = s.nextDelivery ∧
    (s.compareEcho b os es o z).bankA = s.bankA ∧ (s.compareEcho b os es o z).bankB = s.bankB ∧
    (s.compareEcho b os es o z).live = s.live ∧
    (s.compareEcho b os es o z).generation = s.generation ∧
    (s.compareEcho b os es o z).pendingRestart = s.pendingRestart ∧
    (s.compareEcho b os es o z).trunkCounters = s.trunkCounters ∧
    (s.compareEcho b os es o z).freeChoices = s.freeChoices ∧
    (s.compareEcho b os es o z).pending = s.pending := by
  simp only [State.compareEcho]; (repeat' split) <;> simp

/-- The readings that `compareEcho` leaves as they were. -/
@[simp] theorem compareEcho_reads (s : State) (b : Branch) (os es : List Octet) (o : Octet) (z : Bool) :
    (∀ k', (s.compareEcho b os es o z).bank k' = s.bank k') ∧
    (s.compareEcho b os es o z).liveBank = s.liveBank ∧
    (s.compareEcho b os es o z).otherBank = s.otherBank ∧
    (∀ c', (s.compareEcho b os es o z).trunkCount c' = s.trunkCount c') ∧
    (s.compareEcho b os es o z).inReset = s.inReset := by
  simp [State.liveBank, State.bank, State.otherBank, State.trunkCount, State.inReset]

/-- What `gapExpired` leaves as it was. -/
@[simp] theorem gapExpired_frame (s : State) (l : Line) :
    (s.gapExpired l).pinReset = s.pinReset ∧ (s.gapExpired l).supplyReset = s.supplyReset ∧
    (s.gapExpired l).ownAddress = s.ownAddress ∧ (s.gapExpired l).driverEnable = s.driverEnable ∧
    (s.gapExpired l).answer = s.answer ∧ (s.gapExpired l).holdTime = s.holdTime ∧
    (s.gapExpired l).lingerTime = s.lingerTime ∧ (s.gapExpired l).slots = s.slots ∧
    (s.gapExpired l).nextAdmission = s.nextAdmission ∧
    (s.gapExpired l).nextDelivery = s.nextDelivery ∧ (s.gapExpired l).attn = s.attn ∧
    (s.gapExpired l).bankA = s.bankA ∧ (s.gapExpired l).bankB = s.bankB ∧
    (s.gapExpired l).live = s.live ∧ (s.gapExpired l).otherRole = s.otherRole ∧
    (s.gapExpired l).generation = s.generation ∧ (s.gapExpired l).drainCount = s.drainCount ∧
    (s.gapExpired l).lines = s.lines ∧ (s.gapExpired l).pendingRestart = s.pendingRestart ∧
    (s.gapExpired l).freeChoices = s.freeChoices ∧ (s.gapExpired l).pending = s.pending := by
  simp only [State.gapExpired]; split <;> simp

/-- The readings that `gapExpired` leaves as they were. -/
@[simp] theorem gapExpired_reads (s : State) (l : Line) :
    (∀ b', (s.gapExpired l).line b' = s.line b') ∧
    (∀ i', (s.gapExpired l).record i' = s.record i') ∧
    (∀ i', (s.gapExpired l).issue i' = s.issue i') ∧
    (∀ i', (s.gapExpired l).ticket i' = s.ticket i') ∧
    (∀ k', (s.gapExpired l).bank k' = s.bank k') ∧ (s.gapExpired l).liveBank = s.liveBank ∧
    (s.gapExpired l).otherBank = s.otherBank ∧
    (∀ p', (s.gapExpired l).someRecord p' = s.someRecord p') ∧
    (∀ p', (s.gapExpired l).countRecords p' = s.countRecords p') ∧
    (∀ b', (s.gapExpired l).activeCount b' = s.activeCount b') ∧
    (∀ k', (s.gapExpired l).activeIn k' = s.activeIn k') ∧
    (∀ i', (s.gapExpired l).eligible i' = s.eligible i') ∧
    (s.gapExpired l).inReset = s.inReset := by
  simp
    [State.line, State.record, State.issue, State.ticket, State.liveBank, State.bank,
     State.otherBank, State.someRecord, State.countRecords, State.activeCount, State.activeIn,
     State.eligible, State.heldBack, State.inReset]

/-- What `lifetimeExpired` leaves as it was. -/
@[simp] theorem lifetimeExpired_frame (s : State) (i : SlotId) :
    (s.lifetimeExpired i).pinReset = s.pinReset ∧
    (s.lifetimeExpired i).supplyReset = s.supplyReset ∧
    (s.lifetimeExpired i).ownAddress = s.ownAddress ∧ (s.lifetimeExpired i).answer = s.answer ∧
    (s.lifetimeExpired i).holdTime = s.holdTime ∧
    (s.lifetimeExpired i).lingerTime = s.lingerTime ∧
    (s.lifetimeExpired i).nextAdmission = s.nextAdmission ∧
    (s.lifetimeExpired i).nextDelivery = s.nextDelivery ∧ (s.lifetimeExpired i).bankA = s.bankA ∧
    (s.lifetimeExpired i).bankB = s.bankB ∧ (s.lifetimeExpired i).live = s.live ∧
    (s.lifetimeExpired i).generation = s.generation ∧
    (s.lifetimeExpired i).pendingRestart = s.pendingRestart ∧
    (s.lifetimeExpired i).trunkCounters = s.trunkCounters ∧
    (s.lifetimeExpired i).freeChoices = s.freeChoices ∧
    (s.lifetimeExpired i).pending = s.pending := by
  simp only [State.lifetimeExpired]; split <;> simp

/-- The readings that `lifetimeExpired` leaves as they were. -/
@[simp] theorem lifetimeExpired_reads (s : State) (i : SlotId) :
    (∀ k', (s.lifetimeExpired i).bank k' = s.bank k') ∧
    (s.lifetimeExpired i).liveBank = s.liveBank ∧ (s.lifetimeExpired i).otherBank = s.otherBank ∧
    (∀ c', (s.lifetimeExpired i).trunkCount c' = s.trunkCount c') ∧
    (s.lifetimeExpired i).inReset = s.inReset := by
  simp [State.liveBank, State.bank, State.otherBank, State.trunkCount, State.inReset]

/-- What `waitExpired` leaves as it was. -/
@[simp] theorem waitExpired_frame (s : State) (i : SlotId) :
    (s.waitExpired i).pinReset = s.pinReset ∧ (s.waitExpired i).supplyReset = s.supplyReset ∧
    (s.waitExpired i).ownAddress = s.ownAddress ∧ (s.waitExpired i).answer = s.answer ∧
    (s.waitExpired i).holdTime = s.holdTime ∧ (s.waitExpired i).lingerTime = s.lingerTime ∧
    (s.waitExpired i).nextAdmission = s.nextAdmission ∧
    (s.waitExpired i).nextDelivery = s.nextDelivery ∧ (s.waitExpired i).attn = s.attn ∧
    (s.waitExpired i).bankA = s.bankA ∧ (s.waitExpired i).bankB = s.bankB ∧
    (s.waitExpired i).live = s.live ∧ (s.waitExpired i).otherRole = s.otherRole ∧
    (s.waitExpired i).generation = s.generation ∧ (s.waitExpired i).drainCount = s.drainCount ∧
    (s.waitExpired i).pendingRestart = s.pendingRestart ∧
    (s.waitExpired i).trunkCounters = s.trunkCounters ∧
    (s.waitExpired i).freeChoices = s.freeChoices ∧ (s.waitExpired i).pending = s.pending := by
  simp only [State.waitExpired]; (repeat' split) <;> simp

/-- The readings that `waitExpired` leaves as they were. -/
@[simp] theorem waitExpired_reads (s : State) (i : SlotId) :
    (∀ k', (s.waitExpired i).bank k' = s.bank k') ∧ (s.waitExpired i).liveBank = s.liveBank ∧
    (s.waitExpired i).otherBank = s.otherBank ∧
    (∀ c', (s.waitExpired i).trunkCount c' = s.trunkCount c') ∧
    (s.waitExpired i).inReset = s.inReset := by
  simp [State.liveBank, State.bank, State.otherBank, State.trunkCount, State.inReset]

/-- What `holdExpired` leaves as it was. -/
@[simp] theorem holdExpired_frame (s : State) (i : SlotId) :
    (s.holdExpired i).pinReset = s.pinReset ∧ (s.holdExpired i).supplyReset = s.supplyReset ∧
    (s.holdExpired i).ownAddress = s.ownAddress ∧ (s.holdExpired i).framers = s.framers ∧
    (s.holdExpired i).driverEnable = s.driverEnable ∧ (s.holdExpired i).answer = s.answer ∧
    (s.holdExpired i).holdTime = s.holdTime ∧ (s.holdExpired i).lingerTime = s.lingerTime ∧
    (s.holdExpired i).nextAdmission = s.nextAdmission ∧
    (s.holdExpired i).nextDelivery = s.nextDelivery ∧ (s.holdExpired i).bankA = s.bankA ∧
    (s.holdExpired i).bankB = s.bankB ∧ (s.holdExpired i).live = s.live ∧
    (s.holdExpired i).otherRole = s.otherRole ∧ (s.holdExpired i).generation = s.generation ∧
    (s.holdExpired i).drainCount = s.drainCount ∧ (s.holdExpired i).lines = s.lines ∧
    (s.holdExpired i).pendingRestart = s.pendingRestart ∧
    (s.holdExpired i).branchCounters = s.branchCounters ∧
    (s.holdExpired i).freeChoices = s.freeChoices ∧ (s.holdExpired i).pending = s.pending := by
  simp only [State.holdExpired]; (repeat' split) <;> simp

/-- The readings that `holdExpired` leaves as they were. -/
@[simp] theorem holdExpired_reads (s : State) (i : SlotId) :
    (∀ l', (s.holdExpired i).framer l' = s.framer l') ∧
    (∀ b', (s.holdExpired i).line b' = s.line b') ∧
    (∀ k', (s.holdExpired i).bank k' = s.bank k') ∧ (s.holdExpired i).liveBank = s.liveBank ∧
    (s.holdExpired i).otherBank = s.otherBank ∧
    (∀ b' c', (s.holdExpired i).branchCount b' c' = s.branchCount b' c') ∧
    (s.holdExpired i).inReset = s.inReset := by
  simp
    [State.framer, State.line, State.liveBank, State.bank, State.otherBank, State.branchCount,
     State.inReset]

/-- What `lingerExpired` leaves as it was. -/
@[simp] theorem lingerExpired_frame (s : State) (i : SlotId) :
    (s.lingerExpired i).pinReset = s.pinReset ∧ (s.lingerExpired i).supplyReset = s.supplyReset ∧
    (s.lingerExpired i).ownAddress = s.ownAddress ∧ (s.lingerExpired i).framers = s.framers ∧
    (s.lingerExpired i).driverEnable = s.driverEnable ∧ (s.lingerExpired i).answer = s.answer ∧
    (s.lingerExpired i).holdTime = s.holdTime ∧ (s.lingerExpired i).lingerTime = s.lingerTime ∧
    (s.lingerExpired i).nextAdmission = s.nextAdmission ∧
    (s.lingerExpired i).nextDelivery = s.nextDelivery ∧ (s.lingerExpired i).attn = s.attn ∧
    (s.lingerExpired i).bankA = s.bankA ∧ (s.lingerExpired i).bankB = s.bankB ∧
    (s.lingerExpired i).live = s.live ∧ (s.lingerExpired i).otherRole = s.otherRole ∧
    (s.lingerExpired i).generation = s.generation ∧
    (s.lingerExpired i).drainCount = s.drainCount ∧ (s.lingerExpired i).lines = s.lines ∧
    (s.lingerExpired i).pendingRestart = s.pendingRestart ∧
    (s.lingerExpired i).trunkCounters = s.trunkCounters ∧
    (s.lingerExpired i).branchCounters = s.branchCounters ∧
    (s.lingerExpired i).freeChoices = s.freeChoices ∧ (s.lingerExpired i).pending = s.pending := by
  simp only [State.lingerExpired]; (repeat' split) <;> simp

/-- The readings that `lingerExpired` leaves as they were. -/
@[simp] theorem lingerExpired_reads (s : State) (i : SlotId) :
    (∀ l', (s.lingerExpired i).framer l' = s.framer l') ∧
    (∀ b', (s.lingerExpired i).line b' = s.line b') ∧
    (∀ k', (s.lingerExpired i).bank k' = s.bank k') ∧ (s.lingerExpired i).liveBank = s.liveBank ∧
    (s.lingerExpired i).otherBank = s.otherBank ∧
    (∀ c', (s.lingerExpired i).trunkCount c' = s.trunkCount c') ∧
    (∀ b' c', (s.lingerExpired i).branchCount b' c' = s.branchCount b' c') ∧
    (s.lingerExpired i).inReset = s.inReset := by
  simp
    [State.framer, State.line, State.liveBank, State.bank, State.otherBank, State.trunkCount,
     State.branchCount, State.inReset]

/-- What `reseeded` leaves as it was. -/
@[simp] theorem reseeded_frame (s : State) :
    s.reseeded.pinReset = s.pinReset ∧ s.reseeded.supplyReset = s.supplyReset ∧
    s.reseeded.ownAddress = s.ownAddress ∧ s.reseeded.framers = s.framers ∧
    s.reseeded.driverEnable = s.driverEnable ∧ s.reseeded.answer = s.answer ∧
    s.reseeded.holdTime = s.holdTime ∧ s.reseeded.lingerTime = s.lingerTime ∧
    s.reseeded.slots = s.slots ∧ s.reseeded.nextAdmission = s.nextAdmission ∧
    s.reseeded.nextDelivery = s.nextDelivery ∧ s.reseeded.attn = s.attn ∧
    s.reseeded.live = s.live ∧ s.reseeded.generation = s.generation ∧
    s.reseeded.drainCount = s.drainCount ∧ s.reseeded.lines = s.lines ∧
    s.reseeded.pendingRestart = s.pendingRestart ∧ s.reseeded.trunkCounters = s.trunkCounters ∧
    s.reseeded.branchCounters = s.branchCounters ∧ s.reseeded.freeChoices = s.freeChoices ∧
    s.reseeded.pending = s.pending := by
  simp only [State.reseeded]; split <;> simp

/-- The readings that `reseeded` leaves as they were. -/
@[simp] theorem reseeded_reads (s : State) :
    (∀ l', s.reseeded.framer l' = s.framer l') ∧ (∀ b', s.reseeded.line b' = s.line b') ∧
    (∀ i', s.reseeded.record i' = s.record i') ∧ (∀ i', s.reseeded.issue i' = s.issue i') ∧
    (∀ i', s.reseeded.ticket i' = s.ticket i') ∧
    (∀ c', s.reseeded.trunkCount c' = s.trunkCount c') ∧
    (∀ b' c', s.reseeded.branchCount b' c' = s.branchCount b' c') ∧
    (∀ p', s.reseeded.someRecord p' = s.someRecord p') ∧
    (∀ p', s.reseeded.countRecords p' = s.countRecords p') ∧
    (∀ b', s.reseeded.activeCount b' = s.activeCount b') ∧
    (∀ k', s.reseeded.activeIn k' = s.activeIn k') ∧
    (∀ i', s.reseeded.eligible i' = s.eligible i') ∧ s.reseeded.inReset = s.inReset := by
  simp
    [State.framer, State.line, State.record, State.issue, State.ticket, State.trunkCount,
     State.branchCount, State.someRecord, State.countRecords, State.activeCount,
     State.activeIn, State.eligible, State.heldBack, State.inReset]

end Sys2Proof.Laws
end

