-- ==== Sys2Proof/Laws/Ops.lean ====
section
/-! SUPPORT. What the shared operations of Machine/Ops.lean do, once each: what the parts that they
write read as afterwards, and the cases that an operation with a choice can take. -/

namespace Sys2Proof.Laws

open Sys2Proof.Machine

/-! ### Transmissions -/

@[simp] theorem transmit_framer (s : State) (l l' : Line) (t : Telegram) :
    (s.transmit l t).framer l' =
      if l' = l then
        { s.framer l with
          mode := .transmitting (telegramOctets t) (if l = 0 then [] else telegramOctets t) }
      else s.framer l' := by
  simp only [State.transmit]; split <;> simp

@[simp] theorem transmit_driver (s : State) (l l' : Line) (t : Telegram) :
    (s.transmit l t).driverEnable.get l' = if l' = l then true else s.driverEnable.get l' := by
  simp only [State.transmit]; split <;> simp

theorem transmit_branchCount (s : State) (b b' : Branch) (t : Telegram) (c : BranchCounter) :
    (s.transmit (lineOf b) t).branchCount b' c =
      if (s.framer (lineOf b)).mode.inProgress = true ∧ b' = b ∧ c = .rxTorn then
        countUp (s.branchCount b .rxTorn)
      else s.branchCount b' c := by
  simp only [State.transmit]; split <;> simp_all

@[simp] theorem endTransmission_framer (s : State) (l l' : Line) :
    (s.endTransmission l).framer l' =
      if l' = l ∧ (s.framer l).mode.isTransmitting = true then { s.framer l with mode := .hunt }
      else s.framer l' := by
  simp only [State.endTransmission]; split <;> simp_all

theorem endTransmission_driver (s : State) (l l' : Line) :
    (s.endTransmission l).driverEnable.get l' =
      if l' = l ∧ (s.framer l).mode.isTransmitting = true then false else s.driverEnable.get l' := by
  simp only [State.endTransmission]; split <;> simp_all

@[simp] theorem abandonReception_framer (s : State) (l l' : Line) :
    (s.abandonReception l).framer l' =
      if l' = l ∧ (s.framer l).mode.inProgress = true then { s.framer l with mode := .hunt }
      else s.framer l' := by
  simp only [State.abandonReception]; split <;> simp_all

/-! ### The states of a record -/

theorem isActive_iff (r : Record) : r.isActive = true ↔ ∃ st life, r.phase = .active st life := by
  simp only [Record.isActive, Record.activeState]; cases r.phase <;> simp

theorem activeState_eq_some (r : Record) (st : ActiveState) :
    r.activeState = some st ↔ ∃ life, r.phase = .active st life := by
  simp only [Record.activeState]; cases r.phase <;> simp

theorem isDone_iff (r : Record) : r.isDone = true ↔ ∃ x hold, r.phase = .done x hold := by
  simp only [Record.isDone]; cases r.phase <;> simp

theorem isDone_of_isActive {r : Record} (h : r.isActive = true) : r.isDone = false := by
  obtain ⟨st, life, h⟩ := (isActive_iff r).mp h; simp [Record.isDone, h]

theorem withActive_of_active {r : Record} {st' : ActiveState} {life : Word}
    (h : r.phase = .active st' life) (st : ActiveState) :
    r.withActive st = { r with phase := .active st life } := by simp [Record.withActive, h]

/-! ### The choice of claimant -/

theorem heldBack_iff (s : State) (r : Record) :
    s.heldBack r = true ↔ ∃ j e, s.record j = some e ∧ e.target = r.target ∧ e.branch = r.branch ∧
      e.admitStamp < r.admitStamp ∧ e.action = .ask ∧
      (e.activeState = some .queued ∨ ∃ w, e.activeState = some (.backoff w)) := by
  simp only [State.heldBack, someRecord_iff]
  constructor
  · rintro ⟨j, e, he, h⟩
    refine ⟨j, e, he, ?_⟩
    simp only [Bool.and_eq_true, beq_iff_eq, decide_eq_true_eq] at h
    obtain ⟨⟨⟨⟨h1, h2⟩, h3⟩, h4⟩, h5⟩ := h
    refine ⟨h1, h2, h3, h4, ?_⟩
    revert h5
    rcases e.activeState with _ | st
    · simp
    · cases st <;> simp
  · rintro ⟨j, e, he, h1, h2, h3, h4, h5⟩
    refine ⟨j, e, he, ?_⟩
    simp only [h1, h2, h3, h4, beq_self_eq_true, decide_true, Bool.and_self, Bool.true_and]
    obtain h5 | ⟨w, h5⟩ := h5 <;> simp [h5]

theorem eligible_iff (s : State) (i : SlotId) :
    s.eligible i = true ↔ ∃ r, s.record i = some r ∧ r.activeState = some .queued ∧
      (r.action = .ask → s.heldBack r = false) := by
  simp only [State.eligible, Option.any_eq_true]
  constructor
  · rintro ⟨r, hr, h⟩
    refine ⟨r, hr, ?_⟩
    simp only [Bool.and_eq_true, beq_iff_eq] at h
    refine ⟨h.1, fun ha => ?_⟩
    simpa [ha] using h.2
  · rintro ⟨r, hr, h1, h2⟩
    refine ⟨r, hr, ?_⟩
    cases ha : r.action with
    | ask => simp [h1, h2 ha]
    | collect link => simp [h1]

/-- What the look for a claimant does: nothing, or it takes the buffered broadcast, or the first
eligible record of the queue (R105). -/
theorem look_cases (s : State) (b : Branch) :
    (s.look b = s ∧ ((s.line b).state = .idle →
      (s.line b).broadcast = none ∧ ∀ i ∈ (s.line b).queue, s.eligible i = false)) ∨
    (∃ bc, (s.line b).state = .idle ∧ (s.line b).broadcast = some bc ∧
      s.look b = s.takeBroadcast b bc) ∨
    (∃ before i after, (s.line b).state = .idle ∧ (s.line b).broadcast = none ∧
      (s.line b).queue = before ++ i :: after ∧ (∀ j ∈ before, s.eligible j = false) ∧
      s.eligible i = true ∧ s.look b = s.takeRecord b i) := by
  simp only [State.look]
  split
  · rename_i hidle
    split
    · rename_i bc hb
      exact .inr (.inl ⟨bc, hidle, hb, rfl⟩)
    · rename_i hb
      split
      · rename_i i hi
        obtain ⟨he, before, after, hq, hbefore⟩ := List.find?_eq_some_iff_append.mp hi
        exact .inr (.inr ⟨before, i, after, hidle, hb, hq, fun j hj => by simpa using hbefore j hj,
          he, rfl⟩)
      · rename_i hnone
        refine .inl ⟨rfl, fun _ => ⟨hb, fun i hi => ?_⟩⟩
        simpa using List.find?_eq_none.mp hnone i hi
  · rename_i hidle
    exact .inl ⟨rfl, fun h => absurd h hidle⟩

@[simp] theorem takeBroadcast_line (s : State) (b b' : Branch) (bc : Broadcast) :
    (s.takeBroadcast b bc).line b' =
      if b' = b then
        { s.line b with
          broadcast := none, seq := (s.line b).seq + 1,
          state := .sending (.broadcast ((s.line b).seq + 1)) }
      else s.line b' := by simp [State.takeBroadcast]

/-- What taking a queued record writes (R35, R105 to R108). -/
theorem takeRecord_eq {s : State} {i : SlotId} {r : Record} (h : s.record i = some r) (b : Branch) :
    s.takeRecord b i =
      ((s.setRecord i (some
          { r.withActive .onLine with
            branchSeq := some (r.branchSeq.getD ((s.line b).seq + 1)) })).setLine b
        { s.line b with
          queue := (s.line b).queue.erase i
          seq := if r.branchSeq.isSome then (s.line b).seq else (s.line b).seq + 1
          state :=
            .sending (.exchange
              { record := some i, seq := r.branchSeq.getD ((s.line b).seq + 1),
                sought := soughtBy r }) }).transmit (lineOf b)
        (recordTelegram s.ownAddress r (r.branchSeq.getD ((s.line b).seq + 1))) := by
  simp [State.takeRecord, h]

theorem takeRecord_record {s : State} {i : SlotId} {r : Record} (h : s.record i = some r)
    (b : Branch) (j : SlotId) :
    (s.takeRecord b i).record j =
      if j = i then
        some { r.withActive .onLine with
          branchSeq := some (r.branchSeq.getD ((s.line b).seq + 1)) }
      else s.record j := by simp [takeRecord_eq h]

theorem takeRecord_line {s : State} {i : SlotId} {r : Record} (h : s.record i = some r)
    (b b' : Branch) :
    (s.takeRecord b i).line b' =
      if b' = b then
        { s.line b with
          queue := (s.line b).queue.erase i
          seq := if r.branchSeq.isSome then (s.line b).seq else (s.line b).seq + 1
          state :=
            .sending (.exchange
              { record := some i, seq := r.branchSeq.getD ((s.line b).seq + 1),
                sought := soughtBy r }) }
      else s.line b' := by simp [takeRecord_eq h]

@[simp] theorem takeRecord_issue (s : State) (b : Branch) (i j : SlotId) :
    (s.takeRecord b i).issue j = s.issue j := by
  simp only [State.takeRecord]; split <;> simp

@[simp] theorem look_issue (s : State) (b : Branch) (j : SlotId) :
    (s.look b).issue j = s.issue j := by
  obtain ⟨h, -⟩ | ⟨bc, -, -, h⟩ | ⟨_, i, _, -, -, -, -, -, h⟩ := look_cases s b <;>
    simp [h, State.takeBroadcast]

/-- The look of one branch leaves the lines of the others. -/
theorem look_line_of_ne (s : State) {b b' : Branch} (hb : b' ≠ b) :
    (s.look b).line b' = s.line b' := by
  obtain ⟨h, -⟩ | ⟨bc, -, -, h⟩ | ⟨_, i, _, -, -, -, -, he, h⟩ := look_cases s b
  · rw [h]
  · simp [h, hb]
  · obtain ⟨r, hr, -⟩ := (eligible_iff s i).mp he
    simp [h, takeRecord_line hr, hb]

/-- The look changes no record but one that it takes from QUEUED to ON_LINE. -/
theorem look_record (s : State) (b : Branch) (j : SlotId) :
    (s.look b).record j = s.record j ∨
      ∃ r seq life, s.record j = some r ∧ r.phase = .active .queued life ∧
        j ∈ (s.line b).queue ∧ s.eligible j = true ∧
        (s.look b).record j =
          some { r with phase := .active .onLine life, branchSeq := some seq } := by
  obtain ⟨h, -⟩ | ⟨bc, -, -, h⟩ | ⟨_, i, _, -, -, hq, -, he, h⟩ := look_cases s b
  · exact .inl (by rw [h])
  · exact .inl (by simp [h, State.takeBroadcast])
  · obtain ⟨r, hr, ha, -⟩ := (eligible_iff s i).mp he
    obtain ⟨life, hlife⟩ := (activeState_eq_some r .queued).mp ha
    by_cases hj : j = i
    · subst hj
      refine .inr ⟨r, r.branchSeq.getD ((s.line b).seq + 1), life, hr, hlife, by simp [hq], he, ?_⟩
      rw [h, takeRecord_record hr]
      simp [withActive_of_active hlife]
    · exact .inl (by simp [h, takeRecord_record hr, hj])

/-! ### The outputs of a line -/

theorem txd_of_low {s : State} {l : Line} (h : s.driverEnable.get l = false) : s.txd l = .high := by
  simp only [State.txd, h]

theorem txd_of_transmitting {s : State} {l : Line} {octets echoes : List Octet}
    (h : s.driverEnable.get l = true) (hm : (s.framer l).mode = .transmitting octets echoes) :
    s.txd l = .follows (octets.flatMap octetBits) := by
  simp only [State.txd, h, hm]

theorem stopBitToCome_iff (s : State) (b : Branch) :
    s.stopBitToCome b = true ↔ s.driverEnable.get (lineOf b) = true ∧
      ∃ octets last, (s.framer (lineOf b)).mode = .transmitting octets [last] := by
  simp only [State.stopBitToCome]
  constructor
  · intro h
    split at h
    · rename_i octets last hm; exact ⟨h, octets, last, hm⟩
    · simp at h
  · rintro ⟨h, octets, last, hm⟩
    simp [hm, h]

@[simp] theorem stopBitEnds_zero (s : State) : s.stopBitEnds 0 = false := rfl

@[simp] theorem stopBitEnds_lineOf (s : State) (b : Branch) :
    s.stopBitEnds (lineOf b) = (s.stopBitToCome b && Config.stopBitEnds s.freeChoices b) := by
  simp only [State.stopBitEnds, branchOf_lineOf]

/-- What the time before an event can do: nothing where no last stop bit is to come; else it makes one
free choice, releases the DE of the branches whose last stop bit ends, and changes nothing else. -/
theorem endStopBits_cases (s : State) :
    (s.endStopBits = s ∧ ∀ b, s.stopBitToCome b = false) ∨
    ((∃ b, s.stopBitToCome b = true) ∧
      s.endStopBits =
        { s with driverEnable := s.endStopBits.driverEnable, freeChoices := s.freeChoices + 1 }) := by
  simp only [State.endStopBits]
  split
  · rename_i h
    obtain ⟨b, -, hb⟩ := List.any_eq_true.mp h
    exact .inr ⟨⟨b, hb⟩, rfl⟩
  · rename_i h
    refine .inl ⟨rfl, fun b => ?_⟩
    simp only [List.any_eq_true, not_exists, not_and, Bool.not_eq_true] at h
    exact h b (List.mem_finRange b)

@[simp] theorem endStopBits_driverEnable (s : State) (l : Line) :
    s.endStopBits.driverEnable.get l = (s.driverEnable.get l && !s.stopBitEnds l) := by
  obtain ⟨h, hn⟩ | ⟨⟨b, hb⟩, -⟩ := endStopBits_cases s
  · rw [h]
    obtain rfl | ⟨b, rfl⟩ := line_cases l
    · simp
    · simp [hn b]
  · have : (List.finRange 4).any s.stopBitToCome = true :=
      List.any_eq_true.mpr ⟨b, List.mem_finRange b, hb⟩
    simp [State.endStopBits, this]

/-- What `endStopBits` leaves as it was. -/
@[simp] theorem endStopBits_frame (s : State) :
    s.endStopBits.pinReset = s.pinReset ∧ s.endStopBits.supplyReset = s.supplyReset ∧
    s.endStopBits.ownAddress = s.ownAddress ∧ s.endStopBits.framers = s.framers ∧
    s.endStopBits.answer = s.answer ∧ s.endStopBits.holdTime = s.holdTime ∧
    s.endStopBits.lingerTime = s.lingerTime ∧ s.endStopBits.slots = s.slots ∧
    s.endStopBits.nextAdmission = s.nextAdmission ∧
    s.endStopBits.nextDelivery = s.nextDelivery ∧ s.endStopBits.attn = s.attn ∧
    s.endStopBits.bankA = s.bankA ∧ s.endStopBits.bankB = s.bankB ∧
    s.endStopBits.live = s.live ∧ s.endStopBits.otherRole = s.otherRole ∧
    s.endStopBits.generation = s.generation ∧ s.endStopBits.drainCount = s.drainCount ∧
    s.endStopBits.lines = s.lines ∧ s.endStopBits.pendingRestart = s.pendingRestart ∧
    s.endStopBits.trunkCounters = s.trunkCounters ∧
    s.endStopBits.branchCounters = s.branchCounters ∧ s.endStopBits.pending = s.pending := by
  simp only [State.endStopBits]; split <;> simp

/-! ### Completion -/

theorem depart_cases (s : State) (k : BankId) :
    (s.depart k = s ∧ ¬ (s.otherRole = .draining ∧ k ≠ s.live)) ∨
    (s.otherRole = .draining ∧ k ≠ s.live ∧ s.drainCount ≤ 1 ∧
      s.depart k = { s with drainCount := 0, otherRole := .reseeding }) ∨
    (s.otherRole = .draining ∧ k ≠ s.live ∧ 1 < s.drainCount ∧
      s.depart k = { s with drainCount := s.drainCount - 1 }) := by
  simp only [State.depart]
  split
  · rename_i h
    split
    · rename_i h1; exact .inr (.inl ⟨h.1, h.2, h1, rfl⟩)
    · rename_i h1; exact .inr (.inr ⟨h.1, h.2, by omega, rfl⟩)
  · rename_i h; exact .inl ⟨rfl, h⟩

@[simp] theorem completed_fields (r : Record) (x : Result) (hold : Word) :
    (r.completed x hold).phase = .done x hold ∧ (r.completed x hold).branchSeq = none ∧
    (r.completed x hold).activeState = none ∧ (r.completed x hold).isActive = false ∧
    (r.completed x hold).isDone = true ∧
    (r.completed x hold).branch = r.branch ∧ (r.completed x hold).bank = r.bank ∧
    (r.completed x hold).dirSlot = r.dirSlot ∧ (r.completed x hold).kind = r.kind ∧
    (r.completed x hold).target = r.target ∧ (r.completed x hold).opener = r.opener ∧
    (r.completed x hold).opening = r.opening ∧ (r.completed x hold).action = r.action ∧
    (r.completed x hold).outbound = r.outbound ∧ (r.completed x hold).headCode = r.headCode ∧
    (r.completed x hold).retries = r.retries ∧ (r.completed x hold).failure = r.failure ∧
    (r.completed x hold).admitStamp = r.admitStamp :=
  ⟨rfl, rfl, rfl, rfl, rfl, rfl, rfl, rfl, rfl, rfl, rfl, rfl, rfl, rfl, rfl, rfl, rfl, rfl⟩

theorem complete_of_inactive {s : State} {i : SlotId} (x : Result)
    (h : ∀ r, s.record i = some r → r.isActive = false) : s.complete i x = s := by
  simp only [State.complete]
  split
  · rfl
  · rename_i r hr; simp [h r hr]

/-- The completion of an active record, in one equation (R25). -/
theorem complete_of_active {s : State} {i : SlotId} {r : Record} (x : Result)
    (hr : s.record i = some r) (ha : r.isActive = true) :
    s.complete i x =
      (((s.leaveLine i r).setRecord i (some (r.completed x s.holdTime))).depart
        r.bank).assertAttention := by
  simp [State.complete, hr, ha]

@[simp] theorem complete_issue (s : State) (i j : SlotId) (x : Result) :
    (s.complete i x).issue j = s.issue j := by
  simp only [State.complete]; (repeat' split) <;> simp

theorem complete_record (s : State) (i j : SlotId) (x : Result) :
    (s.complete i x).record j =
      if j = i then
        (s.record i).map fun r =>
          if r.isActive then r.completed x s.holdTime else r
      else s.record j := by
  by_cases hj : j = i
  · subst hj
    cases hr : s.record j with
    | none => simp [State.complete, hr]
    | some r =>
      by_cases ha : r.isActive = true
      · simp [complete_of_active x hr ha, ha]
      · simp [State.complete, hr, ha]
  · simp only [hj, if_false, State.complete]
    split
    · rfl
    · split <;> simp [hj]

theorem leaveLine_line_of_ne (s : State) (i : SlotId) (r : Record) {b : Branch}
    (hb : b ≠ r.branch) : (s.leaveLine i r).line b = s.line b := by
  simp only [State.leaveLine]
  split
  · simp [hb]
  · simp only [State.orphan]; split <;> simp [hb]
  · rfl

theorem complete_line_of_ne {s : State} {i : SlotId} {r : Record} (x : Result)
    (hr : s.record i = some r) {b : Branch} (hb : b ≠ r.branch) :
    (s.complete i x).line b = s.line b := by
  by_cases ha : r.isActive = true
  · rw [complete_of_active x hr ha]; simp [leaveLine_line_of_ne s i r hb]
  · simp [State.complete, hr, ha]

/-- Where every member of a set of records completes: each of them is DONE, the others as they were. -/
theorem completeAll_record (s : State) (p : Record → Bool) (x : Result) (j : SlotId) :
    (s.completeAll p x).record j =
      (s.record j).map fun r =>
        if r.isActive && p r then r.completed x s.holdTime else r := by
  have key : ∀ (l : List SlotId) (u : State), l.Nodup → u.holdTime = s.holdTime →
      (l.foldl (fun s i =>
        if (s.record i).any (fun r => r.isActive && p r) then s.complete i x else s) u).record j =
      if j ∈ l then
        (u.record j).map fun r =>
          if r.isActive && p r then r.completed x s.holdTime else r
      else u.record j := by
    intro l
    induction l with
    | nil => simp
    | cons a t ih =>
      intro u hn hu
      have hn' := List.nodup_cons.mp hn
      rw [List.foldl_cons, ih _ hn'.2 (by split <;> simp [hu])]
      by_cases ha : j = a
      · subst ha
        simp only [hn'.1, if_false, List.mem_cons, true_or, if_true]
        cases hr : u.record j with
        | none => simp [hr]
        | some r =>
          by_cases hp : (r.isActive && p r) = true
          · have hact : r.isActive = true := by simp_all
            rw [if_pos (by simpa [hr] using hp), complete_record]
            simp_all
          · rw [if_neg (by simpa [hr] using hp)]
            simp_all
      · have : (if (u.record a).any (fun r => r.isActive && p r) then u.complete a x
            else u).record j = u.record j := by
          split
          · simp [complete_record, ha]
          · rfl
        rw [this]
        simp [ha]
  have := key (List.finRange 16) s (List.nodup_finRange 16) rfl
  simpa [State.completeAll] using this

@[simp] theorem completeAll_issue (s : State) (p : Record → Bool) (x : Result) (j : SlotId) :
    (s.completeAll p x).issue j = s.issue j :=
  foldl_keeps (fun s => s.issue j) (fun s i => by split <;> simp) _ s

/-! ### The outcome of an attempt -/

/-- What a reported failure does (R38). -/
theorem reportFailure_cases (s : State) (i : SlotId) (f : Failure) :
    (s.reportFailure i f = s ∧ ∀ r, s.record i = some r → r.activeState ≠ some .onLine) ∨
    ∃ r life, s.record i = some r ∧ r.phase = .active .onLine life ∧
      ((r.retries = 0 ∧ s.reportFailure i f =
        (s.setRecord i (some { r with failure := some f })).complete i
          (.fault f.reason.octet none)) ∨
      (r.retries ≠ 0 ∧ (s.line r.branch).settings.delay = 0 ∧ s.reportFailure i f =
        (s.setRecord i (some
          { r with
            phase := .active .queued life, failure := some f,
            retries := r.retries - 1 })).joinQueue r.branch i) ∨
      (r.retries ≠ 0 ∧ (s.line r.branch).settings.delay ≠ 0 ∧ s.reportFailure i f =
        s.setRecord i (some
          { r with
            phase := .active (.backoff (s.line r.branch).settings.delay) life, failure := some f,
            retries := r.retries - 1 }))) := by
  simp only [State.reportFailure]
  split
  · exact .inl ⟨rfl, by simp_all⟩
  · rename_i r hr
    split
    · rename_i ha
      obtain ⟨life, hlife⟩ := (activeState_eq_some r .onLine).mp ha
      refine .inr ⟨r, life, hr, hlife, ?_⟩
      split
      · rename_i h0; exact .inl ⟨h0, rfl⟩
      · rename_i h0
        split
        · rename_i hd
          exact .inr (.inl ⟨h0, hd, by simp [withActive_of_active hlife]⟩)
        · rename_i hd
          exact .inr (.inr ⟨h0, hd, by simp [withActive_of_active hlife]⟩)
    · rename_i ha; exact .inl ⟨rfl, by simp_all⟩

/-- What a reported answer does (R36, R37). -/
theorem reportAnswer_cases (s : State) (i : SlotId) (t : Telegram) :
    (s.reportAnswer i t = s ∧
      ((∀ r, s.record i = some r → r.activeState ≠ some .onLine) ∨ t.kind = .req ∨
        t.kind = .collect)) ∨
    ∃ r life, s.record i = some r ∧ r.phase = .active .onLine life ∧
      ((∃ x, s.reportAnswer i t = s.complete i x ∧
        ((t.kind = .ans ∧ x = .ans t.body) ∨ (t.kind = .fault ∧ x = s.faultResult r t))) ∨
      ∃ action, s.reportAnswer i t =
        s.setRecord i (some
          { r with
            phase := .active (.deferred (s.line r.branch).settings.interval) life,
            action := action, branchSeq := none }) ∧
        ((t.kind = .held ∧ action =
          .collect { address := t.source, ticket := t.code,
                     opening := r.branchSeq.getD t.seq }) ∨
        (t.kind = .wait ∧ action = r.action))) := by
  simp only [State.reportAnswer]
  split
  · exact .inl ⟨rfl, .inl (by simp_all)⟩
  · rename_i r hr
    split
    · rename_i ha
      obtain ⟨life, hlife⟩ := (activeState_eq_some r .onLine).mp ha
      cases hk : t.kind with
      | req => exact .inl ⟨rfl, .inr (.inl rfl)⟩
      | collect => exact .inl ⟨rfl, .inr (.inr rfl)⟩
      | ans => exact .inr ⟨r, life, hr, hlife, .inl ⟨_, rfl, .inl ⟨rfl, rfl⟩⟩⟩
      | fault => exact .inr ⟨r, life, hr, hlife, .inl ⟨_, rfl, .inr ⟨rfl, rfl⟩⟩⟩
      | held =>
        exact .inr ⟨r, life, hr, hlife, .inr ⟨_, by
          simp [State.defer, withActive_of_active hlife], .inl ⟨rfl, rfl⟩⟩⟩
      | wait =>
        exact .inr ⟨r, life, hr, hlife, .inr ⟨_, by
          simp [State.defer, withActive_of_active hlife], .inr ⟨rfl, rfl⟩⟩⟩
    · rename_i ha; exact .inl ⟨rfl, .inl (by simp_all)⟩

/-! ### A line going down -/

@[simp] theorem lineDown_issue (s : State) (b : Branch) (st : LineState) (i : SlotId) :
    (s.lineDown b st).issue i = s.issue i := by
  simp only [State.lineDown]; (repeat' split) <;> simp

theorem lineDown_record (s : State) (b : Branch) (st : LineState) (i : SlotId) :
    (s.lineDown b st).record i =
      (s.record i).map fun r =>
        if r.isActive && r.branch == b then
          r.completed (.fault Reason.lineOff.octet none) s.holdTime else r := by
  simp only [State.lineDown]; (repeat' split) <;> simp [completeAll_record]

end Sys2Proof.Laws
end

