-- ==== Sys2Proof/Laws/Keeps.lean ====
section
/-! SUPPORT. Induction over what the part can do, packaged once: a predicate that the elementary moves
keep is kept by the operations built from them, and by every step. -/

namespace Sys2Proof.Laws

open Sys2Proof.Machine Sys2Proof.Safety

/-! ### The shared operations -/

theorem foldl_keeps_pred {ι : Type} (P : State → Prop) {f : State → ι → State}
    (h : ∀ s i, P s → P (f s i)) (l : List ι) {s : State} (hs : P s) : P (l.foldl f s) := by
  induction l generalizing s with
  | nil => exact hs
  | cons a t ih => exact ih (h s a hs)

/-- A predicate kept by the taking of a claimant is kept by the look for one. -/
theorem look_keeps (P : State → Prop) {s : State} {b : Branch} (hs : P s)
    (broadcast : ∀ bc, (s.line b).state = .idle → (s.line b).broadcast = some bc →
      P (s.takeBroadcast b bc))
    (record : ∀ before i after, (s.line b).state = .idle → (s.line b).broadcast = none →
      (s.line b).queue = before ++ i :: after → (∀ j ∈ before, s.eligible j = false) →
      s.eligible i = true → P (s.takeRecord b i)) : P (s.look b) := by
  obtain ⟨h, -⟩ | ⟨bc, h1, h2, h⟩ | ⟨x, i, y, h1, h2, h3, h4, h5, h⟩ := look_cases s b
  · rwa [h]
  · rw [h]; exact broadcast bc h1 h2
  · rw [h]; exact record x i y h1 h2 h3 h4 h5

/-- A predicate kept by the completion of an active record is kept by that of a set of them. -/
theorem completeAll_keeps (P : State → Prop) (p : Record → Bool) (x : Result) {s : State} (hs : P s)
    (one : ∀ u i r, P u → u.record i = some r → r.isActive = true → p r = true →
      P (u.complete i x)) : P (s.completeAll p x) := by
  refine foldl_keeps_pred P (fun u i hu => ?_) _ hs
  split
  · rename_i h
    obtain ⟨r, hr, h⟩ := Option.any_eq_true _ _ |>.mp h
    simp only [Bool.and_eq_true] at h
    exact one u i r hu hr h.1 h.2
  · exact hu

/-! ### The management operations -/

@[simp] theorem badArgument_state (s : State) (d : Octet) : (badArgument s d).2 = s := rfl

@[simp] theorem noStage_state (s : State) : (noStage s).2 = s := rfl

@[simp] theorem bankRead_state (s : State) (selector : Octet) (report : Bank → List Octet) :
    (bankRead s selector report).2 = s := by
  simp only [bankRead]; split
  · rfl
  · split <;> rfl

theorem withEmptyBody_cases (s : State) (body : List Octet) (run : Reply × State) :
    (body = [] ∧ withEmptyBody s body run = run) ∨
      (body ≠ [] ∧ withEmptyBody s body run = badArgument s 255) := by
  cases body <;> simp [withEmptyBody]

/-- Where no field is out of range the operation runs; otherwise the first such field is named (R146,
R148). -/
theorem withFields_cases (s : State) (checks : List (Octet × Bool)) (run : Reply × State) :
    ((∀ c ∈ checks, c.2 = true) ∧ withFields s checks run = run) ∨
      ∃ before offset after, checks = before ++ (offset, false) :: after ∧
        (∀ c ∈ before, c.2 = true) ∧ withFields s checks run = badArgument s offset := by
  simp only [withFields, firstOutOfRange]
  cases h : checks.find? (fun c => !c.2) with
  | none =>
    refine .inl ⟨fun c hc => ?_, rfl⟩
    simpa using List.find?_eq_none.mp h c hc
  | some c =>
    obtain ⟨hc, before, after, hsplit, hbefore⟩ := List.find?_eq_some_iff_append.mp h
    obtain ⟨offset, ok⟩ := c
    simp only [Bool.not_eq_true'] at hc
    subst hc
    exact .inr ⟨before, offset, after, hsplit, fun d hd => by simpa using hbefore d hd, rfl⟩

/-- A staged write edits the STAGED bank, or is refused (R82). -/
theorem stagedWrite_cases (s : State) (edit : Bank → Bank) :
    (s.otherRole = .staged ∧
      stagedWrite s edit = (.ans [], s.setBank s.live.other (edit s.otherBank))) ∨
      (s.otherRole ≠ .staged ∧ stagedWrite s edit = noStage s) := by
  simp only [stagedWrite]; cases s.otherRole <;> simp

/-- What an operation can do to the state (R150). -/
inductive Effect (s : State) : State → Prop where
  /-- nothing -/
  | none : Effect s s
  /-- a directory slot of the STAGED bank filled in range, or emptied (R83, R84) -/
  | slot (i : Fin 64) (e : Option DirEntry) (staged : s.otherRole = .staged)
      (fits : ∀ f, e = some f → entryInRange f = true) :
      Effect s (s.setBank s.live.other (s.otherBank.setSlot i e))
  /-- an item of a profile of the STAGED bank (R85) -/
  | profile (p : Fin 8) (edit : Profile → Profile) (staged : s.otherRole = .staged) :
      Effect s (s.setBank s.live.other (s.otherBank.editProfile p edit))
  /-- an accepted COMMIT (R89) -/
  | promote (staged : s.otherRole = .staged) (single : s.otherBank.duplicateSlot = none)
      (notOwn : s.otherBank.conflictSlot s.ownAddress = none) : Effect s s.promote
  /-- RETIRE in DRAINING (R92) -/
  | retire (draining : s.otherRole = .draining) :
      Effect s (s.completeAll (fun r => r.bank == s.live.other)
        (.fault Reason.revoked.octet none)).lookAll
  /-- the trunk settings (R141) -/
  | trunk (hold linger : Word) (holdFits : within 100 60000 hold.toNat = true)
      (lingerFits : within 100 10000 linger.toNat = true) :
      Effect s { s with holdTime := hold, lingerTime := linger }
  /-- the settings of a branch (R99) -/
  | branch (b : Branch) (c : Settings) (fits : settingsInRange c = true) :
      Effect s (s.writeBranch b c)
  /-- CANCEL of an active record (R42) -/
  | cancel (i : SlotId) (r : Record) (holds : s.record i = some r) (active : r.isActive = true) :
      Effect s (s.completeEarly i (.fault Reason.cancelled.octet Option.none))
  /-- the counters of a line cleared (R159) -/
  | clear (line : Nat) : Effect s (s.clearCounters line)
  /-- RESTART left pending (R161) -/
  | restart : Effect s { s with pendingRestart := true }

theorem Effect.withFields {s : State} {checks : List (Octet × Bool)} {run : Reply × State}
    (h : (∀ c ∈ checks, c.2 = true) → Effect s run.2) :
    Effect s (withFields s checks run).2 := by
  obtain ⟨hc, hw⟩ | ⟨_, _, _, -, -, hw⟩ := withFields_cases s checks run
  · rw [hw]; exact h hc
  · rw [hw]; exact .none

theorem matchTicket_record {s : State} {q a o : Octet} {i : SlotId} {r : Record}
    (h : s.matchTicket q a o = some (i, r)) : s.record i = some r := by
  simp only [State.matchTicket] at h
  split at h
  · simp at h
  · split at h
    · simp only [Option.some.injEq, Prod.mk.injEq] at h
      obtain ⟨rfl, rfl⟩ := h; assumption
    · simp at h

theorem opIdentify_effect (s : State) (body : List Octet) : Effect s (opIdentify s body).2 := by
  rw [opIdentify]
  obtain ⟨-, h⟩ | ⟨-, h⟩ := withEmptyBody_cases s body _ <;> rw [h] <;> exact .none

theorem opReadSlot_effect (s : State) (body : List Octet) : Effect s (opReadSlot s body).2 := by
  unfold opReadSlot; split
  · exact .withFields fun _ => by rw [bankRead_state]; exact .none
  · exact .none

theorem opWriteSlot_effect (s : State) (body : List Octet) : Effect s (opWriteSlot s body).2 := by
  unfold opWriteSlot; split
  · refine .withFields fun hc => ?_
    simp only [List.forall_mem_cons] at hc
    obtain ⟨-, h1, -, -, h4, -⟩ := hc
    simp only [stagedWrite]
    split
    · refine .slot _ _ ‹_› fun f hf => ?_
      obtain rfl := Option.some.inj hf
      rename_i kind _ _ _ _ _ _
      by_cases hk : kind = 0 <;> simp_all [entryInRange, kindOfCode]
    · exact .none
    · exact .none
  · exact .none

theorem opClearSlot_effect (s : State) (body : List Octet) : Effect s (opClearSlot s body).2 := by
  unfold opClearSlot; split
  · refine .withFields fun _ => ?_
    simp only [stagedWrite]
    split
    · exact .slot _ _ ‹_› (by simp)
    · exact .none
    · exact .none
  · exact .none

theorem opReadProfile_effect (s : State) (body : List Octet) :
    Effect s (opReadProfile s body).2 := by
  unfold opReadProfile; split
  · exact .withFields fun _ => by rw [bankRead_state]; exact .none
  · exact .none

theorem editProfile_effect (s : State) (p : Fin 8) (edit : Profile → Profile) :
    Effect s (stagedWrite s fun k => k.editProfile p edit).2 := by
  obtain ⟨hs, h⟩ | ⟨-, h⟩ := stagedWrite_cases s fun k => k.editProfile p edit <;> rw [h]
  · exact .profile p edit hs
  · exact .none

theorem opWriteProfile_effect (s : State) (body : List Octet) :
    Effect s (opWriteProfile s body).2 := by
  unfold opWriteProfile; split
  · refine .withFields fun _ => ?_
    split
    · exact .none
    · exact editProfile_effect s _ _
  · refine .withFields fun _ => ?_
    split
    · exact .none
    · split
      · exact editProfile_effect s _ _
      · exact .withFields fun _ => editProfile_effect s _ _
  · exact .none

theorem opCommit_effect (s : State) (body : List Octet) : Effect s (opCommit s body).2 := by
  unfold opCommit; split
  · split
    · exact .none
    · rename_i hs
      split
      · exact .none
      · split
        · exact .none
        · split
          · exact .none
          · exact .promote (not_not.mp hs) ‹_› ‹_›
  · exact .none

theorem opRetire_effect (s : State) (body : List Octet) : Effect s (opRetire s body).2 := by
  unfold opRetire withEmptyBody
  split
  · split
    · rename_i h
      dsimp only
      exact Effect.retire h
    · exact .none
    · exact .none
  · exact .none

theorem opReadLine_effect (s : State) (body : List Octet) : Effect s (opReadLine s body).2 := by
  unfold opReadLine; split
  · refine .withFields fun _ => ?_
    split <;> exact .none
  · exact .none

theorem opWriteLine_effect (s : State) (body : List Octet) : Effect s (opWriteLine s body).2 := by
  unfold opWriteLine; split
  · refine .withFields fun _ => ?_
    split
    · exact .none
    · refine .withFields fun hc => ?_
      simp only [List.forall_mem_cons] at hc
      exact .trunk _ _ hc.1 hc.2.1
  · refine .withFields fun _ => ?_
    split
    · exact .none
    · refine .withFields fun hc => ?_
      simp only [List.forall_mem_cons] at hc
      obtain ⟨-, -, h3, h4, h5, h6, h7, -⟩ := hc
      refine .branch _ _ ?_
      simp only [settingsInRange, Bool.and_eq_true]
      exact ⟨⟨⟨⟨h3, h4⟩, h5⟩, h6⟩, h7⟩
  · exact .none

theorem opReadRecords_effect (s : State) (body : List Octet) :
    Effect s (opReadRecords s body).2 := by
  rw [opReadRecords]
  obtain ⟨-, h⟩ | ⟨-, h⟩ := withEmptyBody_cases s body _ <;> rw [h] <;> exact .none

theorem opCancel_effect (s : State) (source : Octet) (body : List Octet) :
    Effect s (opCancel s source body).2 := by
  unfold opCancel; split
  · split
    · exact .none
    · rename_i i r hm
      split
      · exact .cancel i r (matchTicket_record hm) ‹_›
      · exact .none
  · exact .none

theorem opReadCounters_effect (s : State) (body : List Octet) :
    Effect s (opReadCounters s body).2 := by
  unfold opReadCounters; split
  · refine .withFields fun _ => ?_
    dsimp only
    split
    · exact .clear _
    · exact .none
  · exact .none

theorem opRestart_effect (s : State) (body : List Octet) : Effect s (opRestart s body).2 := by
  rw [opRestart]
  obtain ⟨-, h⟩ | ⟨-, h⟩ := withEmptyBody_cases s body _ <;> rw [h]
  · exact .restart
  · exact .none

/-- Every operation has one of the effects of R150. -/
theorem operate_effect (s : State) (t : Telegram) : Effect s (operate s t).2 := by
  rw [operate]
  split
  · exact opIdentify_effect s _
  · exact opReadSlot_effect s _
  · exact opWriteSlot_effect s _
  · exact opClearSlot_effect s _
  · exact opReadProfile_effect s _
  · exact opWriteProfile_effect s _
  · exact opCommit_effect s _
  · exact opRetire_effect s _
  · exact opReadLine_effect s _
  · exact opWriteLine_effect s _
  · exact opReadRecords_effect s _
  · exact opCancel_effect s _ _
  · exact opReadCounters_effect s _
  · exact opRestart_effect s _
  · exact .none

theorem manage_keeps (P : State → Prop) {s : State} (t : Telegram) (effect : ∀ u, Effect s u → P u)
    (answer : ∀ u a, P u → P (u.placeAnswer a)) (count : ∀ u c, P u → P (u.countTrunk c)) :
    P (s.manage t) := by
  have h := effect _ (operate_effect s t)
  simp only [State.manage, State.answerReply]
  split
  · exact answer _ _ h
  · exact count _ _ (answer _ _ h)

/-! ### The trunk port -/

/-- What admission does with a REQ: a duplicate's answer, a refusal, or a new record in a slot that the
supply gives (R28 to R34). -/
theorem judgeRequest_cases (s : State) (d : Fin 64) (e : DirEntry) (t : Telegram) :
    (∃ i, s.duplicateOf t = some i ∧ s.judgeRequest d e t = s.answerDuplicate i t) ∨
    (∃ reason, s.duplicateOf t = none ∧ s.judgeRequest d e t = s.refuse t reason) ∨
    ∃ out u i, s.duplicateOf t = none ∧ requestOutbound s.liveBank e t = .ok out ∧
      (s.line e.branch).state.isDown = false ∧
      s.activeCount e.branch < (s.line e.branch).settings.quota.toNat ∧ s.supply = some (u, i) ∧
      s.judgeRequest d e t = u.openRecord i (u.newRecord d e t out) t := by
  simp only [State.judgeRequest]
  split
  · rename_i i hi; exact .inl ⟨i, hi, rfl⟩
  · rename_i hd
    split
    · rename_i reason _; exact .inr (.inl ⟨reason, hd, rfl⟩)
    · rename_i out ho
      split
      · exact .inr (.inl ⟨_, hd, rfl⟩)
      · rename_i hl
        split
        · exact .inr (.inl ⟨_, hd, rfl⟩)
        · rename_i hq
          split
          · exact .inr (.inl ⟨_, hd, rfl⟩)
          · rename_i u i hs
            exact .inr (.inr ⟨out, u, i, hd, ho, by simpa using hl, by omega, hs, rfl⟩)

/-- What a COLLECT to the own address does (R45, R46). -/
theorem collectFor_cases (s : State) (t : Telegram) :
    (∃ a, s.collectFor t = s.placeAnswer a) ∨
    (∃ a, s.collectFor t = (s.placeAnswer a).countTrunk .collects) ∨
    ∃ i r x hold a, s.record i = some r ∧ r.phase = .done x hold ∧ s.collectFor t =
      ({ (s.placeAnswer a).setRecord i
          (some { r with phase := .delivered x s.lingerTime s.nextDelivery }) with
        nextDelivery := s.nextDelivery + 1 } : State).releaseAttention.countTrunk .collects := by
  simp only [State.collectFor]
  split
  · exact .inl ⟨_, rfl⟩
  · rename_i i r h
    have hr : s.record i = some r := by
      obtain ⟨o, -, h⟩ := Option.bind_eq_some_iff.mp h
      exact matchTicket_record h
    split
    · exact .inl ⟨_, rfl⟩
    · rename_i x hold hp
      exact .inr (.inr ⟨i, r, x, hold, _, hr, hp, rfl⟩)
    · exact .inr (.inl ⟨_, rfl⟩)

/-- What the trunk port does with a valid telegram (R130 to R139). -/
theorem trunkTake_cases (s : State) (t : Telegram) :
    s.trunkTake t = s ∨ s.trunkTake t = s.countTrunk .ignored ∨
    s.trunkTake t = s.countTrunk .overrun ∨
    (s.answer = .empty ∧ t.kind = .req ∧ t.dest ≠ s.ownAddress ∧ t.dest ≠ 0 ∧
      ∃ d e, s.liveBank.find t.dest = some (d, e) ∧ s.trunkTake t = s.judgeRequest d e t) ∨
    (s.answer = .empty ∧ t.kind = .req ∧ t.dest = s.ownAddress ∧ s.trunkTake t = s.manage t) ∨
    (s.answer = .empty ∧ t.kind = .collect ∧ t.dest = s.ownAddress ∧
      s.trunkTake t = s.collectFor t) ∨
    (s.answer = .empty ∧ t.kind = .req ∧ t.dest = 0 ∧ fieldCode t.code = true ∧
      s.trunkTake t = s.relayBroadcast { code := t.code, body := t.body }) := by
  simp only [State.trunkTake]
  split
  · rename_i ha
    cases hu : s.classify t with
    | admission d e =>
      refine .inr (.inr (.inr (.inl ⟨ha, ?_⟩)))
      simp only [State.classify] at hu
      (repeat' split at hu) <;> simp_all [State.serve]
    | management =>
      refine .inr (.inr (.inr (.inr (.inl ⟨ha, ?_⟩))))
      simp only [State.classify] at hu
      (repeat' split at hu) <;> simp_all [State.serve]
    | collection =>
      refine .inr (.inr (.inr (.inr (.inr (.inl ⟨ha, ?_⟩)))))
      simp only [State.classify] at hu
      (repeat' split at hu) <;> simp_all [State.serve]
    | broadcast =>
      refine .inr (.inr (.inr (.inr (.inr (.inr ⟨ha, ?_⟩)))))
      simp only [State.classify] at hu
      (repeat' split at hu) <;> simp_all [State.serve]
    | ignored => exact .inr (.inl rfl)
  · split
    · exact .inr (.inl rfl)
    · exact .inr (.inr (.inl rfl))
  · exact .inl rfl

/-! ### Every step -/

/-- The events that commands are made of. A predicate that each of them keeps is kept by every command:
the resets, the receivers, the trunk port, the branch lines and the table. -/
structure KeptByEvents (P : State → Prop) : Prop where
  choice : ∀ s n, P s → P { s with freeChoices := n }
  pin : ∀ s, P s → P s.pinAsserted
  supply : ∀ s, P s → P s.supplyAsserted
  pinRelease : ∀ s a r, P s → P (({ s with pinReset := false } : State).leaveReset a r)
  supplyRelease : ∀ s a r, P s → P (({ s with supplyReset := false } : State).leaveReset a r)
  turnaround : ∀ s l, P s → P (s.restartTurnaround l)
  receive : ∀ s l m, P s → (s.framer l).mode.isTransmitting = false → m.isTransmitting = false →
    P (s.setMode l m)
  check : ∀ s l, P s → P (s.countRxCheck l)
  torn : ∀ s l, P s → P (s.countRxTorn l)
  malformed : ∀ s l, P s → P (s.countRxMalformed l)
  echo : ∀ s b octets echoes rest, P s → (s.framer (lineOf b)).mode = .transmitting octets echoes →
    P (s.setMode (lineOf b) (.transmitting octets rest))
  trunk : ∀ s t, P s → telegramValid t = true → (s.framer 0).mode = .hunt → P (s.trunkTake t)
  branch : ∀ s b t, P s → telegramValid t = true → (s.framer (lineOf b)).mode = .hunt →
    P (s.branchTake b t)
  send : ∀ s, P s → P s.sendAnswer
  sent : ∀ s, P s → P s.answerSent
  done : ∀ s b, P s → P (s.transmissionDone b)
  mismatch : ∀ s b, P s → P (s.echoFault b)
  window : ∀ s b, P s → P (s.windowExpired b)
  settled : ∀ s b, P s → P (s.settled b)
  lifetime : ∀ s i, P s → P (s.lifetimeExpired i)
  wait : ∀ s i, P s → P (s.waitExpired i)
  hold : ∀ s i, P s → P (s.holdExpired i)
  linger : ∀ s i, P s → P (s.lingerExpired i)
  reseed : ∀ s, P s → P s.reseeded

variable {P : State → Prop}

@[simp] theorem restartTurnaround_keeps_framer (s : State) (l l' : Line) :
    (s.restartTurnaround l).framer l' = s.framer l' := by simp

theorem judgeStructure_keeps (k : KeptByEvents P) {s : State} {l : Line} (t : Telegram) (hs : P s)
    (hm : (s.framer l).mode = .hunt) : P (s.judgeStructure l t) := by
  simp only [State.judgeStructure]
  split
  · rename_i hv
    obtain rfl | ⟨b, rfl⟩ := line_cases l
    · exact k.trunk s t hs hv hm
    · simpa [State.handOver] using k.branch s b t hs hv hm
  · exact k.malformed _ _ hs

theorem assemble_keeps (k : KeptByEvents P) {s : State} {l : Line} (o : Octet) (hs : P s)
    (hm : (s.framer l).mode.isTransmitting = false) : P (s.assemble l o) := by
  have go : ∀ m, m.isTransmitting = false → P (s.setMode l m) := fun m => k.receive s l m hs hm
  simp only [State.assemble]
  split
  · split
    · exact go _ rfl
    · exact hs
  · split
    · exact go _ rfl
    · exact k.malformed _ _ (go _ rfl)
  · split
    · simp only [State.judgeTelegram]
      split
      · exact k.check _ _ (go _ rfl)
      · split
        · exact judgeStructure_keeps k _ (go _ rfl) (by simp)
        · exact k.malformed _ _ (go _ rfl)
    · exact go _ rfl
  · exact hs

theorem receiveOctet_keeps (k : KeptByEvents P) {s : State} (l : Line) (o : Octet) (stop : Bool)
    (hs : P s) : P (s.receiveOctet l o stop) := by
  simp only [State.receiveOctet]
  split
  · rename_i octets echoes hm
    obtain rfl | ⟨b, rfl⟩ := line_cases l
    · exact hs
    · simp only [branchOf_lineOf, State.compareEcho]
      split
      · exact k.mismatch _ _ hs
      · split
        · split
          · exact k.done _ _ hs
          · exact k.echo _ _ _ _ _ hs hm
        · exact k.mismatch _ _ hs
  all_goals
    rename_i hm
    exact assemble_keeps k o (k.turnaround _ _ hs) (by simp [hm, FramerMode.isTransmitting])

theorem receiveTelegram_keeps (k : KeptByEvents P) {s : State} (l : Line) (t : Telegram)
    (hs : P s) : P (s.receiveTelegram l t) := by
  simp only [State.receiveTelegram]
  split
  · exact hs
  · rename_i hm
    refine judgeStructure_keeps k _ (k.receive _ _ _ (k.turnaround _ _ hs) ?_ rfl) (by simp)
    simpa using hm

theorem whenRunning_keeps {s : State} {f : State → State} (hs : P s) (h : P (f s)) :
    P (s.whenRunning f) := by
  simp only [State.whenRunning]; split
  · exact hs
  · exact h

/-- What every event keeps, every command keeps. -/
theorem exec_keeps (k : KeptByEvents P) (c : Instr) {s t : State} (hs : P s)
    (h : exec c s = .next t) : P t := by
  have trunk : ∀ (x : Telegram) {u : State}, takeOnTrunk x s = .next u → P u := by
    intro x u hu
    obtain rfl := Host.Outcome.next.inj hu
    exact whenRunning_keeps hs (receiveTelegram_keeps k 0 x hs)
  have run : ∀ (f : State → State) {u : State}, P (f s) →
      Host.Outcome.next (φ := Fault) (ρ := Refusal) (s.whenRunning f) = .next u → P u := by
    intro f u hf hu
    obtain rfl := Host.Outcome.next.inj hu
    exact whenRunning_keeps hs hf
  cases c with
  | resetAssert cause =>
    obtain rfl := Host.Outcome.next.inj h
    cases cause with
    | supplyLow => exact k.supply s hs
    | pinLow n =>
      dsimp only
      split
      · exact hs
      · split
        · exact k.pin s hs
        · split
          · exact k.pin _ (k.choice s _ hs)
          · exact k.choice s _ hs
  | resetRelease a r =>
    obtain rfl := Host.Outcome.next.inj h
    split
    · exact k.pinRelease s a r hs
    · exact hs
  | powerOnRelease a r =>
    obtain rfl := Host.Outcome.next.inj h
    split
    · exact k.supplyRelease s a r hs
    · exact hs
  | badLength l o => exact run _ (receiveOctet_keeps k l o true hs) h
  | gapTimerExpiry l =>
    refine run (fun s => s.gapExpired l) ?_ h
    simp only [State.gapExpired]
    split
    · rename_i hm
      refine k.torn _ _ (k.receive _ _ _ hs ?_ rfl)
      revert hm; cases (s.framer l).mode <;>
        simp [FramerMode.inProgress, FramerMode.isTransmitting]
    · exact hs
  | receptionCompletion l o => exact run _ (receiveOctet_keeps k l o true hs) h
  | octetReceived l o stop => exact run _ (receiveOctet_keeps k l o stop hs) h
  | turnaroundExpiry => exact run _ (k.send s hs) h
  | trunkTransmitCompletion => exact run _ (k.sent s hs) h
  | branchTransmitCompletion b => exact run _ (k.done s b hs) h
  | echoMismatch b cause => exact run _ (k.mismatch s b hs) h
  | answerWindowExpiry b => exact run _ (k.window s b hs) h
  | branchTelegram b x => exact run _ (receiveTelegram_keeps k (lineOf b) x hs) h
  | settleExpiry b => exact run _ (k.settled s b hs) h
  | lifetimeExpiry i => exact run _ (k.lifetime s i hs) h
  | waitExpiry i => exact run _ (k.wait s i hs) h
  | holdExpiry i => exact run _ (k.hold s i hs) h
  | lingerExpiry i => exact run _ (k.linger s i hs) h
  | reseedCompletion => exact run _ (k.reseed s hs) h
  | _ => exact trunk _ h

/-- What every event keeps, the taking of a command from the queue and the end of stop bits, every step
keeps. -/
theorem step_keeps (k : KeptByEvents P) (queue : ∀ s q, P s → P { s with pending := q })
    (quiet : ∀ s, P s → P s.endStopBits) {s t : State} (hs : P s) (h : step s = .next t) : P t := by
  simp only [step] at h
  split at h
  · obtain rfl := Host.Outcome.next.inj h; exact whenRunning_keeps hs (quiet s hs)
  · exact exec_keeps k _ (whenRunning_keeps (queue _ _ hs) (quiet _ (queue _ _ hs))) h

end Sys2Proof.Laws
end

