-- ==== Sys2Proof/Laws/Telegrams.lean ====
section
/-! SUPPORT. The encodings read back: kinds, numbers of two octets, tickets, codes, and the check register
over a telegram followed by its own check. -/

namespace Sys2Proof.Laws

open Sys2Proof.Machine

@[simp] theorem kindOf_kindOctet (k : Kind) : kindOf (kindOctet k) = some k := by cases k <;> rfl

@[simp] theorem wordOf_highOctet_lowOctet (w : Word) : wordOf (highOctet w) (lowOctet w) = w := by
  simp only [wordOf, highOctet, lowOctet]
  apply BitVec.eq_of_getLsbD_eq
  intro i hi
  simp only [BitVec.getLsbD_append, BitVec.getLsbD_extractLsb']
  split <;> rename_i h
  · simp [h]
  · have : 8 + (i - 8) = i := by omega
    have h8 : i - 8 < 8 := by omega
    simp [this, h8]

@[simp] theorem highOctet_wordOf (h l : Octet) : highOctet (wordOf h l) = h := by
  simp only [highOctet, wordOf]
  apply BitVec.eq_of_getLsbD_eq
  intro i hi
  simp only [BitVec.getLsbD_extractLsb', BitVec.getLsbD_append, hi, decide_true, Bool.true_and]
  have : ¬ 8 + i < 8 := by omega
  simp [this]

@[simp] theorem lowOctet_wordOf (h l : Octet) : lowOctet (wordOf h l) = l := by
  simp only [lowOctet, wordOf]
  apply BitVec.eq_of_getLsbD_eq
  intro i hi
  simp only [BitVec.getLsbD_extractLsb', BitVec.getLsbD_append, hi, decide_true, Bool.true_and,
    Nat.zero_add, if_true]

@[simp] theorem octetOf_toNat {n : Nat} (h : n < 256) : (octetOf n).toNat = n := by
  simp [octetOf, Nat.mod_eq_of_lt h]

@[simp] theorem kindOfCode_code (k : StationKind) : kindOfCode k.code = k := by cases k <;> rfl

@[simp] theorem accessOfCode_code (a : Access) : accessOfCode a.code = a := by cases a <;> rfl

@[simp] theorem classOfCode_code (c : OpClass) : classOfCode c.code = c := by cases c <;> rfl

@[simp] theorem branchOfNumber_branchNumber (b : Branch) : branchOfNumber (branchNumber b) = b := by
  revert b; decide

/-- The register after its own high octet: the low octet moves up (R9). -/
theorem crcOctet_high (w : Word) : crcOctet w (highOctet w) = wordOf (lowOctet w) 0 := by
  have shift : ∀ (x : Word), x.msb = false → crcShift x = x <<< 1 := by
    intro x hx; simp [crcShift, hx]
  have start : w ^^^ wordOf (highOctet w) 0 = (lowOctet w).setWidth 16 := by
    apply BitVec.eq_of_getLsbD_eq
    intro i hi
    simp only [wordOf, highOctet, lowOctet, BitVec.getLsbD_xor, BitVec.getLsbD_append,
      BitVec.getLsbD_extractLsb', BitVec.getLsbD_setWidth]
    by_cases h : i < 8
    · simp [h, hi]
    · have h1 : 8 + (i - 8) = i := by omega
      have h2 : i - 8 < 8 := by omega
      simp [h, hi, h1, h2]
  have low : ∀ k, k < 8 → (((lowOctet w).setWidth 16 : Word) <<< k).msb = false := by
    intro k hk
    simp only [BitVec.msb_eq_getLsbD_last, BitVec.getLsbD_shiftLeft, BitVec.getLsbD_setWidth]
    have : ¬ (16 - 1 - k < 8) := by omega
    simp [BitVec.getLsbD_of_ge _ _ (Nat.le_of_not_lt this)]
  have step : ∀ k, k < 8 → crcShift (((lowOctet w).setWidth 16 : Word) <<< k) =
      ((lowOctet w).setWidth 16 : Word) <<< (k + 1) := by
    intro k hk
    rw [shift _ (low k hk), ← BitVec.shiftLeft_add]
  simp only [crcOctet, start]
  have s0 := step 0 (by omega)
  rw [BitVec.shiftLeft_zero] at s0
  rw [s0, step 1 (by omega), step 2 (by omega), step 3 (by omega), step 4 (by omega),
    step 5 (by omega), step 6 (by omega), step 7 (by omega)]
  apply BitVec.eq_of_getLsbD_eq
  intro i hi
  simp only [wordOf, BitVec.getLsbD_shiftLeft, BitVec.getLsbD_setWidth, BitVec.getLsbD_append]
  by_cases h : i < 8
  · simp [h, hi]
  · simp [h, hi]; omega

/-- A run of octets followed by the register it leaves, high octet first, leaves 0: the check of a
telegram is good (R9). -/
theorem crcOver_own_check (crc : Word) (octets : List Octet) :
    crcOver crc (octets ++ wordOctets (crcOver crc octets)) = 0 := by
  have key : ∀ w : Word, crcOver w (wordOctets w) = 0 := by
    intro w
    have zero : ∀ o : Octet, crcOctet (wordOf o 0) o = 0 := by decide
    simp only [crcOver, wordOctets, List.foldl_cons, List.foldl_nil, crcOctet_high, zero]
  have := key (crcOver crc octets)
  simpa [crcOver, List.foldl_append] using this

end Sys2Proof.Laws
end

