-- ==== Sys2Proof/Laws/Commands.lean ====
section
/-! SUPPORT. How a telegram command reaches the block that takes it: on the trunk in the states in which
it takes a telegram, on a branch with its receiver in HUNT; and the lookup of R54 and the ticket match of
R20 in their own words. -/

namespace Sys2Proof.Laws

open Sys2Proof.Machine Sys2Proof.Safety

theorem whenRunning_of_running {s : State} (h : s.inReset = false) (f : State → State) :
    s.whenRunning f = f s := by simp [State.whenRunning, h]

theorem whenRunning_of_reset {s : State} (h : s.inReset = true) (f : State → State) :
    s.whenRunning f = s := by simp [State.whenRunning, h]

theorem restartTurnaround_empty {s : State} (h : s.answer = .empty) (l : Line) :
    s.restartTurnaround l = s := by
  simp only [State.restartTurnaround, h]; split <;> rfl

@[simp] theorem restartTurnaround_lineOf (s : State) (b : Branch) :
    s.restartTurnaround (lineOf b) = s := by simp [State.restartTurnaround]

/-- A valid telegram that the trunk takes is served by what it asks for. -/
theorem takeOnTrunk_ready {s : State} {t : Telegram} (h : TrunkReady s)
    (hv : telegramValid t = true) : takeOnTrunk t s = .next (s.serve t (s.classify t)) := by
  obtain ⟨hr, hm, ha⟩ := h
  have hset : s.setMode 0 .hunt = s := setMode_self hm
  simp [takeOnTrunk, whenRunning_of_running hr, State.receiveTelegram, hm,
    FramerMode.isTransmitting, restartTurnaround_empty ha, hset, State.judgeStructure, hv,
    State.handOver, State.trunkTake, ha]

/-- A REQ to the own address that the trunk takes is a management operation. -/
theorem takeOnTrunk_own {s : State} {source seq code : Octet} {body : List Octet}
    (h : ManagementReady s) (hs : stationAddress source = true) (hb : bodyFits body = true) :
    takeOnTrunk (ownRequest s source seq code body) s =
      .next (s.manage (ownRequest s source seq code body)) := by
  have hd : s.ownAddress.toNat ≤ 250 := by
    have := h.2; simp [stationAddress] at this; omega
  rw [takeOnTrunk_ready h.1 (by
    simp_all [telegramValid, ownRequest, kindPermits, bodyFits])]
  simp [State.classify, ownRequest, State.serve]

/-- A valid telegram that a branch hears is judged by its controller. -/
theorem branchTelegram_heard {s : State} {b : Branch} {t : Telegram} (h : Hears s b t) :
    exec (.branchTelegram b t) s = .next (s.branchTake b t) := by
  obtain ⟨hr, hm, hv⟩ := h
  have hset : s.setMode (lineOf b) .hunt = s := setMode_self hm
  simp [exec, execBranchTelegram, whenRunning_of_running hr, State.receiveTelegram, hm,
    FramerMode.isTransmitting, hset, State.judgeStructure, hv, State.handOver]

/-- The choice of claimant judges as R104 does. -/
theorem heldBack_iff_HeldBack (s : State) (r : Record) : s.heldBack r = true ↔ HeldBack s r :=
  heldBack_iff s r

theorem eligible_iff_Eligible (s : State) (i : SlotId) : s.eligible i = true ↔ Eligible s i := by
  rw [eligible_iff]
  constructor
  · rintro ⟨r, hr, ha, h⟩
    refine ⟨r, hr, ha, ?_⟩
    cases hk : r.action with
    | ask => exact .inr ⟨rfl, by simp [← heldBack_iff_HeldBack, h hk]⟩
    | collect link => exact .inl ⟨link, rfl⟩
  · rintro ⟨r, hr, ha, ⟨link, h⟩ | ⟨-, h⟩⟩
    · exact ⟨r, hr, ha, fun hk => by rw [hk] at h; cases h⟩
    · exact ⟨r, hr, ha, fun _ => by simpa [← heldBack_iff_HeldBack] using h⟩

theorem not_Eligible_iff (s : State) (i : SlotId) : ¬ Eligible s i ↔ s.eligible i = false := by
  rw [← eligible_iff_Eligible, Bool.not_eq_true]

/-- The lookup of the one slot that represents an address (R54). -/
theorem find_of_represents {s : State} {a : Octet} {d : Fin 64} {e : DirEntry}
    (h : Represents s a d e) : s.liveBank.find a = some (d, e) := by
  obtain ⟨hd, ha, huniq⟩ := h
  cases hf : s.liveBank.find a with
  | none =>
    have := List.findSome?_eq_none_iff.mp hf d (List.mem_finRange d)
    simp [hd, ha] at this
  | some p =>
    obtain ⟨j, -, hj⟩ := List.exists_of_findSome?_eq_some hf
    split at hj
    · rename_i f hget
      split at hj
      · rename_i hl
        obtain rfl := Option.some.inj hj
        obtain rfl := huniq j f hget hl
        rw [hd] at hget
        rw [Option.some.inj hget]
      · simp at hj
    · simp at hj

theorem find_none_iff (k : Bank) (a : Octet) :
    k.find a = none ↔ ∀ d e, k.directory.get d = some e → e.logical ≠ a := by
  simp only [Bank.find, List.findSome?_eq_none_iff]
  constructor
  · intro h d e hd
    have := h d (List.mem_finRange d)
    simpa [hd] using this
  · intro h d _
    cases hd : k.directory.get d with
    | none => rfl
    | some e => simp [h d e hd]

/-- A request that repeats no record meets no duplicate (R29). -/
theorem duplicateOf_none {s : State} {t : Telegram}
    (h : ∀ j q, s.record j = some q → ¬ Repeats q t.source t.seq t.dest) :
    s.duplicateOf t = none := by
  simp only [State.duplicateOf, List.find?_eq_none]
  intro i _
  cases hr : s.record i with
  | none => simp
  | some r => have := h i r hr; simp [Repeats] at this ⊢; exact this

/-- The lowest FREE slot (R34). -/
theorem freeSlot_eq_some (s : State) (i : SlotId) :
    s.freeSlot = some i ↔ s.record i = none ∧ ∀ j, j < i → s.record j ≠ none := by
  revert i
  have key : ∀ f : SlotId → Bool, ∀ i, (List.finRange 16).find? f = some i ↔
      f i = true ∧ ∀ j, j < i → f j = false := by
    intro f i
    have hs : (List.finRange 16).Pairwise (· < ·) := List.pairwise_lt_finRange 16
    have hmem := fun j : SlotId => List.mem_finRange j
    constructor
    · intro h
      obtain ⟨hi, before, after, hl, hb⟩ := List.find?_eq_some_iff_append.mp h
      refine ⟨hi, fun j hj => ?_⟩
      rw [hl] at hs
      have hm := hmem j
      rw [hl, List.mem_append, List.mem_cons] at hm
      obtain hm | rfl | hm := hm
      · simpa using hb j hm
      · exact absurd hj (lt_irrefl _)
      · have := (List.pairwise_append.mp hs).2.1
        have := (List.pairwise_cons.mp this).1 j hm
        exact absurd hj (lt_asymm this)
    · rintro ⟨hi, hlow⟩
      cases h : (List.finRange 16).find? f with
      | none => exact absurd hi (List.find?_eq_none.mp h i (hmem i))
      | some k =>
        obtain ⟨hk, before, after, hl, hb⟩ := List.find?_eq_some_iff_append.mp h
        obtain hlt | rfl | hgt := lt_trichotomy k i
        · rw [hlow k hlt] at hk; simp at hk
        · rfl
        · rw [hl] at hs
          have hm := hmem i
          rw [hl, List.mem_append, List.mem_cons] at hm
          obtain hm | rfl | hm := hm
          · have := hb i hm; simp [hi] at this
          · exact absurd hgt (lt_irrefl _)
          · have := (List.pairwise_append.mp hs).2.1
            have := (List.pairwise_cons.mp this).1 i hm
            exact absurd hgt (lt_asymm this)
  intro i
  rw [State.freeSlot, key]
  simp [Option.isNone_iff_eq_none, Option.ne_none_iff_isSome]

/-- A REQ to a represented address comes to admission through its slot (R131). -/
theorem takeOnTrunk_admission {s : State} {source target seq code : Octet} {body : List Octet}
    {d : Fin 64} {e : DirEntry} (h : TrunkReady s) (hs : stationAddress source = true)
    (ht : stationAddress target = true) (hb : bodyFits body = true) (ho : target ≠ s.ownAddress)
    (hd : Represents s target d e) :
    takeOnTrunk (request source target seq code body) s =
      .next (s.judgeRequest d e (request source target seq code body)) := by
  have hrange : 1 ≤ target.toNat ∧ target.toNat ≤ 250 := by
    simpa [stationAddress] using ht
  have h0 : target ≠ 0 := by rintro rfl; simp at hrange
  have hv : telegramValid (request source target seq code body) = true := by
    simp only [telegramValid, request, kindPermits, Bool.and_eq_true]
    exact ⟨⟨decide_eq_true hrange.2, hs⟩, hb⟩
  rw [takeOnTrunk_ready h hv]
  have : s.classify (request source target seq code body) = .admission d e := by
    unfold State.classify request
    dsimp only
    rw [if_neg ho, if_neg h0, find_of_represents hd]
  rw [this, State.serve]

theorem ticketIssue_toNat (q : Octet) : (ticketIssue q).toNat = q.toNat / 16 := by
  have := q.isLt
  simp [ticketIssue, BitVec.extractLsb'_toNat, Nat.shiftRight_eq_div_pow]
  omega

end Sys2Proof.Laws
end

