-- ==== Sys2Proof/WellFormed.lean ====
section
/-! DEFINITION. The commands that say what their row says: a telegram that a framer can hand over
(R13) and that is of the row's sort, an octet that is the row's octet. A command that is not well
formed still runs (log entries 4 and 5); well-formedness is the sender's side. -/

namespace Sys2Proof

open Machine (stationAddress bodyFits telegramValid)

/-- The fields of a REQ to the own address (R132). -/
def managementWf (source : Octet) (body : List Octet) : Bool :=
  stationAddress source && bodyFits body

/-- A command that is what its row of the table names. -/
def Instr.wf (i : Instr) : Bool :=
  match i with
  | .resetAssert _ => true
  | .resetRelease _ _ => true
  | .powerOnRelease _ _ => true
  | .badLength _ octet => octet.toNat < 5 || 53 < octet.toNat
  | .gapTimerExpiry _ => true
  | .receptionCompletion _ _ => true
  | .admission source target _ _ body =>
      stationAddress source && stationAddress target && bodyFits body
  | .collect source _ _ _ => stationAddress source
  | .broadcastRelay source _ code body =>
      stationAddress source && code.toNat ≤ 0x1F && bodyFits body
  | .ignored telegram => telegramValid telegram
  | .unsupported source _ code body =>
      stationAddress source && (code.toNat < 0x80 || 0x8D < code.toNat) && bodyFits body
  | .identify source _ body => managementWf source body
  | .readSlot source _ body => managementWf source body
  | .writeSlot source _ body => managementWf source body
  | .clearSlot source _ body => managementWf source body
  | .readProfile source _ body => managementWf source body
  | .writeProfile source _ body => managementWf source body
  | .commit source _ body => managementWf source body
  | .retire source _ body => managementWf source body
  | .readLine source _ body => managementWf source body
  | .writeLine source _ body => managementWf source body
  | .readRecords source _ body => managementWf source body
  | .cancel source _ body => managementWf source body
  | .readCounters source _ body => managementWf source body
  | .restart source _ body => managementWf source body
  | .turnaroundExpiry => true
  | .trunkTransmitCompletion => true
  | .branchTransmitCompletion _ => true
  | .echoMismatch _ _ => true
  | .answerWindowExpiry _ => true
  | .branchTelegram _ telegram => telegramValid telegram
  | .settleExpiry _ => true
  | .lifetimeExpiry _ => true
  | .waitExpiry _ => true
  | .holdExpiry _ => true
  | .lingerExpiry _ => true
  | .reseedCompletion => true
  | .octetReceived _ _ _ => true

end Sys2Proof
end

