-- ==== Sys2Proof/Tests/Slice0.lean ====
section
/-! SUPPORT. The model's own tests: ill-formed commands, one step of each command with the outcome that
the worked examples of the spec or its rules give, and for each statement with hypotheses a concrete
state that meets them. -/

namespace Sys2Proof.Tests

open Sys2Proof.Machine Sys2Proof.Safety

/-! ### Helpers -/

/-- The state after one command. -/
def run (c : Instr) (s : State) : State :=
  match exec c s with
  | .next t => t
  | .fault _ => s
  | .refused _ => s

/-- The state after one step. -/
def after (s : State) : State :=
  match step s with
  | .next t => t
  | .fault _ => s
  | .refused _ => s

/-- The part just out of hard reset with own address 10 and trunk rate code 1, as in the worked examples
of sections 2.10, 3.8 and 8.13. -/
def board : State := State.atReset 10 1

/-- The slots of section 3.8: 40 is a LEAF on branch 2, 41 a READ_ONLY LEAF on branch 3, 60 a RELAY on
branch 4, 90 a CLOSED LEAF on branch 1. -/
def slot40 : DirEntry := ⟨40, 1, .leaf, 33, 0, .opened, 2⟩
def slot41 : DirEntry := ⟨41, 2, .leaf, 7, 1, .readOnly, 1⟩
def slot60 : DirEntry := ⟨60, 3, .relay, 0, 0, .opened, 3⟩
def slot90 : DirEntry := ⟨90, 0, .leaf, 90, 0, .closed, 0⟩

/-- Profile 1 of section 3.8: code 0x03 translates to 0x04, the offset is −1. -/
def profile1 : Profile := { resetProfile.setOp 3 ⟨4, .read⟩ with offset := 0xFFFF }

def routedBank : Bank :=
  { directory :=
      (((resetBank.directory.set 0 (some slot40)).set 5 (some slot41)).set 12 (some slot60)).set 63
        (some slot90)
    profiles := resetBank.profiles.set 1 profile1 }

/-- The board with these slots LIVE in bank A. -/
def routed : State := { board with bankA := routedBank }

/-- The READ of section 2.10, opened by station 1 with Seq 0x11 for target 40. -/
def readRecord (p : Phase) (seq : Option Octet) : Record where
  opener := 1
  opening := 0x11
  headCode := 3
  target := 40
  bank := .a
  dirSlot := 0
  branch := 1
  kind := .leaf
  outbound := { dest := 33, code := 3, body := [0, 1, 2] }
  action := .ask
  branchSeq := seq
  retries := 2
  failure := none
  admitStamp := 0
  phase := p

/-- A record in slot 0 at issue 1. -/
def holding (r : Record) : State :=
  { routed with slots := routed.slots.set 0 { issue := 1, record := some r }, nextAdmission := 1 }

/-- Branch 2 in a line state, its sequence counter at 1. -/
def lineIn (s : State) (st : LineState) : State := s.setLine 1 { s.line 1 with state := st, seq := 1 }

def attempt : Exchange := { record := some 0, seq := 1, sought := .ask .leaf 33 }
def orphan : Exchange := { attempt with record := none }

/-- Branch 2 listens for the answer of slot 0. -/
def listening : State :=
  lineIn (holding (readRecord (.active .onLine 5000) (some 1))) (.listening attempt 50)

/-- Branch 2 sends, with two echoes outstanding. -/
def sends (s : State) (a : Attempt) : State :=
  ((lineIn s (.sending a)).setMode 2 (.transmitting [7, 8] [7, 8])).setDriver 2 true

def sending : State :=
  sends (holding (readRecord (.active .onLine 5000) (some 1))) (.exchange attempt)

/-- Slot 0 waits in the queue of branch 2, whose line settles. -/
def queued : State :=
  let s := lineIn (holding (readRecord (.active .queued 5000) none)) (.settling 4)
  s.setLine 1 { s.line 1 with queue := [0] }

def done : State := { holding (readRecord (.done (.ans [1, 2, 3, 4]) 30000) none) with attn := true }
def delivered : State :=
  { holding (readRecord (.delivered (.ans [1, 2, 3, 4]) 2000 0) none) with nextDelivery := 1 }
def inBackoff : State := lineIn (holding (readRecord (.active (.backoff 100) 5000) (some 1))) .idle

/-- Bank A drains the record of slot 0, bank B is LIVE. -/
def draining : State :=
  { inBackoff with live := .b, generation := 1, otherRole := .draining, drainCount := 1 }

def turning : State := { routed with answer := .turnaround (ownAnswer routed 1 2 .ans 0x80 []) 2 }

def trunkSends : State :=
  ({ routed with answer := .sending (ownAnswer routed 1 2 .ans 0x8D []), pendingRestart := true }
    |>.setMode 0 (.transmitting [] [])).setDriver 0 true

/-- An answer of node 33 on branch 2. -/
def answer (k : Kind) (code : Octet) (body : List Octet) : Telegram :=
  { dest := 10, source := 33, kind := k, seq := 1, code := code, body := body }

/-- What stands in the answer buffer: kind, Source, Code and Body. -/
def placed (s : State) : Option (Kind × Octet × Octet × List Octet) :=
  match s.answer with
  | .turnaround a _ => some (a.kind, a.source, a.code, a.body)
  | .empty => none
  | .sending _ => none

/-! ### Ill-formed commands are refused -/

theorem test_wf_bad_length_in_range : Instr.wf (.badLength 0 5) = false := by decide
theorem test_wf_source_zero : Instr.wf (.admission 0 40 1 3 []) = false := by decide
theorem test_wf_source_above_250 : Instr.wf (.identify 251 1 []) = false := by decide
theorem test_wf_target_broadcast : Instr.wf (.admission 1 0 1 3 []) = false := by decide
theorem test_wf_body_too_long :
    Instr.wf (.admission 1 40 1 3 (List.replicate 49 0)) = false := by decide
theorem test_wf_management_body_too_long :
    Instr.wf (.commit 1 1 (List.replicate 49 0)) = false := by decide
theorem test_wf_collect_source : Instr.wf (.collect 0 1 0x10 0x11) = false := by decide
theorem test_wf_broadcast_code : Instr.wf (.broadcastRelay 1 1 0x20 []) = false := by decide
theorem test_wf_unsupported_code : Instr.wf (.unsupported 1 1 0x8D []) = false := by decide
theorem test_wf_ignored_fault_body :
    Instr.wf (.ignored { answer .fault 4 [1, 2] with seq := 0 }) = false := by decide
theorem test_wf_branch_held_body : Instr.wf (.branchTelegram 1 (answer .held 0x10 [1])) = false := by
  decide
theorem test_wf_good : Instr.wf (.admission 1 40 0x11 3 [0, 1, 2]) = true := by decide

/-! ### The check and the octets on the line -/

/-- Section 1.4: the check of the octets 0x31 to 0x39 is 0x29B1. -/
theorem test_check_value :
    crcOver crcPreset [0x31, 0x32, 0x33, 0x34, 0x35, 0x36, 0x37, 0x38, 0x39] = 0x29B1 := by
  decide +kernel

/-- Section 1.6: the octets of the ANS of node 33 up to its Body. -/
theorem test_answer_octets :
    (telegramOctets { answer .ans 3 [0x41] with seq := 0x5C }).take 8 =
      [0xC5, 0x06, 0x0A, 0x21, 0x02, 0x5C, 0x03, 0x41] := by decide

/-- R1: the octet 0xC5 with its start bit, its least significant bit first, and its stop bit. -/
theorem test_octet_bits :
    octetBits 0xC5 = [false, true, false, true, false, false, false, true, true, true] := by decide

/-! ### One step of each command -/

/-- Branch 2 has sent two octets, of which the echo of the last is still expected. -/
def lastEcho : State := sending.setMode 2 (.transmitting [7, 8] [8])

/-- R15, R187: DE2 falls when the last stop bit ends, which a step lets happen or not; TXD2 is then
driven high. -/
theorem test_last_stop_bit :
    (after lastEcho).driverEnable.get 2 = !Config.stopBitEnds 0 1 := rfl

theorem test_txd :
    lastEcho.txd 2 = .follows (octetBits 7 ++ octetBits 8) ∧
      (lastEcho.setDriver 2 false).txd 2 = .high := by decide

/-- R18: the echoes of two octets outstanding, DE2 stays high. -/
theorem test_stop_bit_between : after sending = sending := by decide

/-- R186: 10 µs of RESET_N empty the LIVE directory and hold the part. -/
theorem test_reset_assert :
    (run (.resetAssert (.pinLow 10000)) routed).inReset = true ∧
      (run (.resetAssert (.pinLow 10000)) routed).liveBank.directory.get 0 = none := by decide

/-- R2, R129: address straps 0 give 250, rate straps 7 give rate code 0. -/
theorem test_reset_release :
    (run (.resetRelease 0 7) { board with pinReset := true }).ownAddress = 250 ∧
      ((run (.resetRelease 0 7) { board with pinReset := true }).framer 0).rate = 0 := by decide

theorem test_power_on_release :
    (run (.powerOnRelease 10 1) { State.reset with supplyReset := true }).ownAddress = 10 ∧
      ((run (.powerOnRelease 10 1) { State.reset with supplyReset := true }).framer 0).rate = 1 := by
  decide

/-- Section 1.6: the Length 197 is refused, RX_MALFORMED 1. -/
theorem test_bad_length :
    ((run (.badLength 2 0xC5) (routed.setMode 2 (.length 0xFFFF 3))).framer 2).mode = .hunt ∧
      (run (.badLength 2 0xC5) (routed.setMode 2 (.length 0xFFFF 3))).branchCount 1 .rxMalformed = 1 := by
  decide

/-- Section 1.6: RX_TORN 1. -/
theorem test_gap_timer_expiry :
    (run (.gapTimerExpiry 2) (routed.setMode 2 (.length 0xFFFF 3))).branchCount 1 .rxTorn = 1 := by
  decide

/-- R9, R13: a last octet that leaves the check register at another value than 0 is a bad check. -/
theorem test_reception_completion :
    (run (.receptionCompletion 0 0) (routed.setMode 0 (.body [5, 10, 1, 1, 1, 0x80, 0] 1 0xFFFF 3))).trunkCount
      .rxCheck = 1 := by decide

/-- Section 1.6: a Lead in HUNT, and an octet that is none. -/
theorem test_octet_received :
    ((run (.octetReceived 2 0xC5 true) routed).framer 2).mode = .length 0xFFFF 3 ∧
      run (.octetReceived 2 0x13 true) routed = routed := by decide

/-- Section 3.8, request 1: HELD 0x10 from 10, and branch 2 takes the record at once. -/
theorem test_admission :
    placed (run (.admission 1 40 0x11 3 [0, 100, 2]) routed) = some (.held, 10, 0x10, []) ∧
      ((run (.admission 1 40 0x11 3 [0, 100, 2]) routed).record 0).map Record.outbound =
        some { dest := 33, code := 3, body := [0, 100, 2] } := by decide

/-- Section 3.8, request 3: 0 − 1 lies outside 0 to 65535, FAULT RANGE from 41. -/
theorem test_admission_range :
    placed (run (.admission 1 41 0x13 3 [0, 0, 1]) routed) = some (.fault, 41, 3, []) := by decide

/-- Section 2.10 at 300.0: the result, with the head's code. -/
theorem test_collect :
    placed (run (.collect 1 0x14 0x10 0x11) done) = some (.ans, 10, 3, [1, 2, 3, 4]) ∧
      (run (.collect 1 0x14 0x10 0x11) done).attn = false := by decide

/-- Section 2.10 at 80.0: WAIT with the quoted ticket. -/
theorem test_collect_active :
    placed (run (.collect 1 0x13 0x10 0x11) inBackoff) = some (.wait, 10, 0x10, []) := by decide

/-- R125, R133: every IDLE line takes the broadcast, and nothing is answered. -/
theorem test_broadcast_relay :
    ((run (.broadcastRelay 1 3 0x10 []) routed).line 3).state = .sending (.broadcast 1) ∧
      placed (run (.broadcastRelay 1 3 0x10 []) routed) = none := by decide

/-- Section 3.8, request 10: no answer, IGNORED 1. -/
theorem test_ignored :
    run (.ignored (request 1 91 0x1A 3 [0, 1, 1])) routed = routed.countTrunk .ignored := by decide

/-- Section 8.13, step 11. -/
theorem test_unsupported :
    placed (run (.unsupported 1 0x68 0x8E []) routed) = some (.fault, 10, 1, []) ∧
      (run (.unsupported 1 0x68 0x8E []) routed).trunkCount .refused = 1 := by decide

/-- Section 8.13, step 1. -/
theorem test_identify :
    placed (run (.identify 1 0x60 []) { routed with generation := 4 }) =
      some (.ans, 10, 0x80, [0xAD, 0x41, 0x04, 1, 10, 1, 0, 4, 0, 0]) := by decide

/-- R53: slot 0 of section 3.8. -/
theorem test_read_slot :
    placed (run (.readSlot 1 1 [0, 0]) routed) =
      some (.ans, 10, 0x81, [1, 40, 2, 0, 33, 0, 0, 2]) := by decide

theorem test_write_slot :
    (run (.writeSlot 1 1 [12, 60, 4, 1, 0, 0, 0, 3]) board).otherBank.directory.get 12 = some slot60 := by
  decide

/-- R51, R148: a LEAF with node address 0 is out of range at offset 4. -/
theorem test_write_slot_range :
    placed (run (.writeSlot 1 1 [12, 60, 4, 0, 0, 0, 0, 3]) board) = some (.fault, 10, 0x12, [4]) := by
  decide

theorem test_clear_slot :
    (run (.clearSlot 1 1 [63]) { routed with live := .b }).bankA.directory.get 63 = none := by decide

/-- R77: item 3 of profile 1 of section 3.8. -/
theorem test_read_profile :
    placed (run (.readProfile 1 1 [0, 1, 3]) routed) = some (.ans, 10, 0x84, [4, 0]) := by decide

/-- Section 4.9: the register offset 1000 of profile 2. -/
theorem test_write_profile :
    ((run (.writeProfile 1 1 [2, 32, 3, 232]) board).otherBank.profiles.get 2).offset = 1000 := by
  decide

/-- R85: an operation entry with 3 octets has the wrong length. -/
theorem test_write_profile_length :
    placed (run (.writeProfile 1 1 [2, 3, 4]) board) = some (.fault, 10, 0x12, [255]) := by decide

/-- R89: the STAGED bank becomes LIVE, the generation 1 is answered, and with no active record the old
LIVE bank is re-seeded. -/
theorem test_commit :
    placed (run (.commit 1 1 [0]) routed) = some (.ans, 10, 0x86, [1]) ∧
      (run (.commit 1 1 [0]) routed).live = .b ∧
      (run (.commit 1 1 [0]) routed).otherRole = .reseeding := by decide

/-- Section 5.4: a wrong expected generation is STALE with the live one. -/
theorem test_commit_stale :
    placed (run (.commit 1 1 [9]) routed) = some (.fault, 10, 0x15, [0]) := by decide

/-- R92: one record revoked. -/
theorem test_retire :
    placed (run (.retire 1 1 []) draining) = some (.ans, 10, 0x87, [1]) ∧
      ((run (.retire 1 1 []) draining).record 0).map Record.phase =
        some (.done (.fault 0x0F none) 30000) := by decide

/-- R142, R150: hold time 30000, linger time 2000, rate 1, own address 10, ATTN released. -/
theorem test_read_line :
    placed (run (.readLine 1 1 [0]) routed) =
      some (.ans, 10, 0x88, [0x75, 0x30, 0x07, 0xD0, 1, 10, 0]) := by decide

/-- Section 8.13, step 6: quota 17. -/
theorem test_write_line_range :
    placed (run (.writeLine 1 0x63 [2, 1, 4, 0, 50, 0, 100, 0, 200, 0x13, 0x88, 17]) listening) =
      some (.fault, 10, 0x12, [11]) := by decide

/-- Section 8.13, step 7: quota 2, the line still LISTENING. -/
theorem test_write_line :
    let s := run (.writeLine 1 0x64 [2, 1, 4, 0, 50, 0, 100, 0, 200, 0x13, 0x88, 2]) listening
    (s.line 1).settings.quota = 2 ∧ (s.line 1).state = .listening attempt 50 := by decide

/-- R157: slot 0 QUEUED with ticket 0x10, every other slot FREE at issue 0. -/
theorem test_read_records :
    (placed (run (.readRecords 1 0x67 []) queued)).map (fun p => p.2.2.2.take 6) =
      some [1, 0x10, 0, 1, 0, 2] := by decide

/-- Section 8.13, step 8: station 5 did not open the exchange. -/
theorem test_cancel_other_station :
    placed (run (.cancel 5 0x65 [0x10, 0x11]) listening) = some (.fault, 10, 6, []) := by decide

/-- Section 8.13, step 9: status 0, slot DONE, the attempt an orphan, ATTN asserted. -/
theorem test_cancel :
    placed (run (.cancel 1 0x66 [0x10, 0x11]) listening) = some (.ans, 10, 0x8B, [0]) ∧
      ((run (.cancel 1 0x66 [0x10, 0x11]) listening).line 1).state = .listening orphan 50 ∧
      (run (.cancel 1 0x66 [0x10, 0x11]) listening).attn = true := by decide

/-- R159: SENT is the first counter of a branch, and is cleared. -/
theorem test_read_counters :
    (placed (run (.readCounters 1 0x61 [2, 1]) (routed.countBranch 1 .sent))).map
        (fun p => p.2.2.2.take 4) = some [0, 1, 0, 0] ∧
      (run (.readCounters 1 0x61 [2, 1]) (routed.countBranch 1 .sent)).branchCount 1 .sent = 0 := by
  decide

/-- Section 8.13, step 12: answered, the records unchanged. -/
theorem test_restart :
    placed (run (.restart 1 0x69 []) done) = some (.ans, 10, 0x8D, []) ∧
      (run (.restart 1 0x69 []) done).slots = done.slots := by decide

/-- R137, R187: DE0 is driven. -/
theorem test_turnaround_expiry :
    (run .turnaroundExpiry turning).driverEnable.get 0 = true := by decide

/-- Section 8.13, step 13. -/
theorem test_trunk_transmit_completion :
    let s := run .trunkTransmitCompletion
      { trunkSends with slots := done.slots, attn := true }
    s.record 0 = none ∧ s.issue 0 = 1 ∧ s.attn = false ∧ s.answer = .empty := by decide +kernel

/-- R109: SENT 1 and the answer window of 50 ms. -/
theorem test_branch_transmit_completion :
    ((run (.branchTransmitCompletion 1) sending).line 1).state = .listening attempt 50 ∧
      (run (.branchTransmitCompletion 1) sending).branchCount 1 .sent = 1 := by decide

/-- R38, R110: LINE_ERROR with retries left 2 is BACKOFF with 1. -/
theorem test_echo_mismatch :
    ((run (.echoMismatch 1 .missing) sending).record 0).map (fun r => (r.retries, r.phase)) =
      some (1, .active (.backoff 100) 5000) := by decide

/-- R122: the eighth in a row faults the line, and the record completes with LINE_OFF. -/
theorem test_echo_mismatch_eighth :
    let s := run (.echoMismatch 1 .stopBitLow) (sending.setLine 1 { sending.line 1 with errors := 7 })
    (s.line 1).state = .faulted ∧
      (s.record 0).map Record.phase = some (.done (.fault 4 none) 30000) := by decide

/-- Section 2.10 at 51.0: BACKOFF for 100 ms, retries left 1, last failure NO_ANSWER. -/
theorem test_answer_window_expiry :
    ((run (.answerWindowExpiry 1) listening).record 0).map
        (fun r => (r.retries, r.failure, r.phase)) =
      some (1, some .noAnswer, .active (.backoff 100) 5000) := by decide

/-- Section 2.10 at 154.0: DONE with the ANS, ATTN asserted; R22: no branch sequence any more. -/
theorem test_branch_telegram_ans :
    let s := run (.branchTelegram 1 (answer .ans 3 [1, 2, 3, 4])) listening
    (s.record 0).map (fun r => (r.phase, r.branchSeq)) =
        some (.done (.ans [1, 2, 3, 4]) 30000, none) ∧
      s.attn = true := by decide

/-- Section 2.10 at 157.0: FAULT DEVICE with detail 4. -/
theorem test_branch_telegram_fault :
    ((run (.branchTelegram 1 (answer .fault 4 [])) listening).record 0).map Record.phase =
      some (.done (.fault 8 (some 4)) 30000) := by decide

/-- Section 2.10 at 154.3: the line, IDLE again, takes the waiting slot with the next sequence. -/
theorem test_settle_expiry :
    ((run (.settleExpiry 1) queued).line 1).state =
      .sending (.exchange { record := some 0, seq := 2, sought := .ask .leaf 33 }) := by decide

/-- R41: FAULT EXPIRED with the last failure, none, as detail 0. -/
theorem test_lifetime_expiry :
    ((run (.lifetimeExpiry 0) queued).record 0).map Record.phase =
      some (.done (.fault 0x0C (some 0)) 30000) := by decide

/-- Section 2.10 at 151.0: the retransmission keeps branch sequence 1. -/
theorem test_wait_expiry :
    ((run (.waitExpiry 0) inBackoff).line 1).state = .sending (.exchange attempt) ∧
      ((run (.waitExpiry 0) inBackoff).line 1).seq = 1 := by decide

/-- R47: FREE, UNCLAIMED 1, ATTN released. -/
theorem test_hold_expiry :
    (run (.holdExpiry 0) done).record 0 = none ∧
      (run (.holdExpiry 0) done).trunkCount .unclaimed = 1 ∧
      (run (.holdExpiry 0) done).attn = false := by decide

/-- Section 2.10 at 2300.0: FREE at issue 1. -/
theorem test_linger_expiry :
    (run (.lingerExpiry 0) delivered).record 0 = none ∧
      (run (.lingerExpiry 0) delivered).issue 0 = 1 := by decide

/-- R93: STAGED, with the content of the LIVE bank. -/
theorem test_reseed_completion :
    (run .reseedCompletion { routed with otherRole := .reseeding }).otherRole = .staged ∧
      (run .reseedCompletion { routed with otherRole := .reseeding }).bankB.directory.get 0 =
        some slot40 := by decide

/-! ### The statements' hypotheses are met -/

/-- What every record of a state satisfies, slot by slot. -/
theorem of_slots {s : State} {P : SlotId → Record → Prop} [∀ i r, Decidable (P i r)]
    (h : ∀ i : SlotId, (s.record i).all (fun r => decide (P i r)) = true) :
    ∀ i r, s.record i = some r → P i r := by
  intro i r hr
  have := h i
  simpa [hr] using this

/-- What every valid slot of a bank satisfies, slot by slot. -/
theorem of_directory {k : Bank} {P : Fin 64 → DirEntry → Prop} [∀ i e, Decidable (P i e)]
    (h : ∀ i : Fin 64, (k.directory.get i).all (fun e => decide (P i e)) = true) :
    ∀ i e, k.directory.get i = some e → P i e := by
  intro i e he
  have := h i
  simpa [he] using this

theorem exists_record {s : State} {i : SlotId} {P : Record → Prop} [DecidablePred P] :
    (∃ r, s.record i = some r ∧ P r) ↔ (s.record i).any (fun r => decide (P r)) = true := by
  cases s.record i <;> simp

/-- The queues hold the QUEUED records, read slot by slot. -/
theorem queues_of {s : State} (hn : ∀ b : Branch, (s.line b).queue.Nodup)
    (h : ∀ (b : Branch) (i : SlotId), i ∈ (s.line b).queue ↔
      (s.record i).any (fun r => decide (r.activeState = some .queued ∧ r.branch = b)) = true) :
    QueueHoldsQueued s :=
  fun b => ⟨hn b, fun i => by rw [exists_record, h b i]⟩

/-- The attempts are the ON_LINE records, read slot by slot. -/
theorem attempts_of {s : State}
    (h : ∀ (b : Branch) (i : SlotId), LineState.record (s.line b).state = some i ↔
      (s.record i).any (fun r => decide (r.activeState = some .onLine ∧ r.branch = b)) = true) :
    OnLineIsAttempt s :=
  fun b i => by rw [exists_record, h b i]

theorem represents40 : Represents routed 40 0 slot40 :=
  ⟨by decide, rfl, of_directory (P := fun j f => f.logical = 40 → j = 0) (by decide)⟩

theorem represents60 : Represents routed 60 12 slot60 :=
  ⟨by decide, rfl, of_directory (P := fun j f => f.logical = 60 → j = 12) (by decide)⟩

/-- A REQ with Seq 0x12 to 40 reaches the checks after the first in a state with these slots. -/
theorem reaches40 (s : State) (hl : s.liveBank = routed.liveBank) (ho : s.ownAddress = 10)
    (hr : TrunkReady s) (body : List Octet) (hb : bodyFits body = true)
    (h : ∀ j : SlotId,
      (s.record j).all (fun q => decide (¬ (q.opener = 1 ∧ q.opening = 0x12 ∧ q.target = 40))) = true) :
    ReachesAdmission s 1 40 0x12 body 0 slot40 where
  ready := hr
  sourceFits := by decide
  targetFits := by decide
  bodyFitsOk := hb
  notOwn := by rw [ho]; decide
  represented := by
    have := represents40
    simpa only [Represents, hl] using this
  notRepeated := by
    intro j q hq
    have := h j
    rw [hq] at this
    exact of_decide_eq_true (p := ¬ (q.opener = 1 ∧ q.opening = 0x12 ∧ q.target = 40)) this

theorem ready_routed : TrunkReady routed := by unfold TrunkReady; decide
theorem ready_management : ManagementReady routed := ⟨ready_routed, by decide⟩

theorem witness_StepRunsFrontCommand :
    ({ board with pinReset := true }).inReset = true ∧ ({ board with pinReset := true }).pending = [] ∧
    (∀ b, ¬ LastStopBitToCome sending b) ∧ sending.pending = [] ∧
    lastEcho.inReset = false ∧ LastStopBitToCome lastEcho 1 ∧ lastEcho.pending = [] ∧
    ¬ LastStopBitToCome lastEcho 0 ∧
    ({ lastEcho with pending := [.reseedCompletion] }).pending = .reseedCompletion :: [] := by
  simp only [LastStopBitToCome, ← Laws.stopBitToCome_iff]
  decide

theorem witness_HardResetHoldsThePart :
    (ResetCause.supplyLow = .supplyLow ∨ ∃ n, 10000 ≤ n ∧ ResetCause.supplyLow = .pinLow n) ∧
    (ResetCause.pinLow 10000 = .supplyLow ∨ ∃ n, 10000 ≤ n ∧ ResetCause.pinLow 10000 = .pinLow n) ∧
    999 < 1000 ∧ 1000 ≤ 9999 ∧ 9999 < 10000 :=
  ⟨.inl rfl, .inr ⟨10000, by decide, rfl⟩, by decide, by decide, by decide⟩

theorem witness_ReleaseSamplesStraps :
    ({ board with pinReset := true }).pinReset = true ∧
    ({ board with pinReset := true }).supplyReset = false ∧
    ({ board with pinReset := true, supplyReset := true }).pinReset = true ∧
    ({ board with pinReset := true, supplyReset := true }).supplyReset = true ∧
    ({ board with supplyReset := true }).pinReset = false ∧
    ({ board with supplyReset := true }).supplyReset = true ∧
    board.pinReset = false ∧ board.supplyReset = false := by decide

theorem witness_HardResetTakesNothing :
    ({ board with pinReset := true }).inReset = true ∧
    (∀ cause, Instr.reseedCompletion ≠ .resetAssert cause) ∧
    (∀ a r, Instr.reseedCompletion ≠ .resetRelease a r) ∧
    ∀ a r, Instr.reseedCompletion ≠ .powerOnRelease a r := by
  refine ⟨by decide, ?_, ?_, ?_⟩ <;> intros <;> simp

theorem witness_ReceiverTakesLeadAndLength :
    routed.inReset = false ∧ (routed.framer 2).mode = .hunt ∧
    ((routed.setMode 2 (.length 0xFFFF 3)).framer 2).mode = .length 0xFFFF 3 ∧
    (5 ≤ (5 : Octet).toNat ∧ (5 : Octet).toNat ≤ 53) ∧ (5 ≤ (53 : Octet).toNat ∧ (53 : Octet).toNat ≤ 53) ∧
    (4 : Octet).toNat < 5 ∧ 53 < (54 : Octet).toNat := by decide

/-- A receiver one octet before the end of a telegram of Kind `kind` from Source `source`, its check
register set so that the octet 0 ends it well or badly. -/
def lastOctet (l : Line) (source kind : Octet) (crc : Word) : State :=
  routed.setMode l (.body [5, 10, source, kind, 1, 0x80, 0] 1 crc 3)

theorem witness_TelegramsJudgedOrTorn :
    ((lastOctet 0 1 1 0).framer 0).mode = .body [5, 10, 1, 1, 1, 0x80, 0] 1 0 3 ∧
    (lastOctet 0 1 1 0).inReset = false ∧ crcOctet 0xFFFF 0 ≠ 0 ∧ crcOctet 0 0 = 0 ∧
    readTelegram [5, 10, 1, 7, 1, 0x80, 0, 0] = none ∧
    (readTelegram [5, 10, 0, 1, 1, 0x80, 0, 0]).map telegramValid = some false ∧
    (readTelegram [5, 10, 1, 1, 1, 0x80, 0, 0]).map telegramValid = some true ∧
    ((routed.setMode 2 (.body [6] 8 1 3)).framer 2).mode = .body [6] 8 1 3 ∧ 1 < 8 ∧
    ((lastOctet 2 1 1 0).framer (lineOf 1)).mode = .body [5, 10, 1, 1, 1, 0x80, 0] 1 0 3 ∧
    ((lastOctet 2 1 1 0).framer 0).mode = .hunt ∧
    ((routed.setMode 2 (.length 0xFFFF 3)).framer 2).mode = .length 0xFFFF 3 ∧
    (sending.framer 2).mode.isTransmitting = true ∧ sending.inReset = false := by decide

theorem witness_OctetsMakeTheTelegram :
    telegramValid (answer .ans 3 (List.replicate 48 0)) = true ∧ (listening.framer 0).mode = .hunt ∧
    (listening.framer (lineOf 1)).mode = .hunt := by decide

theorem witness_EchoesEndTheTransmission :
    sending.inReset = false ∧ (sending.line 1).state = .sending (.exchange attempt) ∧
    (sending.framer (lineOf 1)).mode = .transmitting [7, 8] [7, 8] ∧ ([7, 8] : List Octet) ≠ [] ∧
    ([7, 8] : List Octet) = [7] ++ 8 :: [] ∧ ((9 : Octet) ≠ 8 ∨ true = false) := by decide

theorem witness_IgnoredAndOverrunTelegrams :
    turning.inReset = false ∧ (turning.framer 0).mode = .hunt ∧
    telegramValid (request 1 91 1 3 []) = true ∧ telegramValid (request 1 40 1 3 []) = true ∧
    PassesBy routed (request 1 91 1 3 []) ∧ routed.answer = .empty ∧
    PassesBy turning (request 1 91 1 3 []) ∧ ¬ PassesBy turning (request 1 40 1 3 []) ∧
    turning.answer = .turnaround (ownAnswer routed 1 2 .ans 0x80 []) 2 ∧
    (stationAddress 1 = true ∧ bodyFits (List.replicate 48 0) = true ∧ stationAddress 40 = true ∧
      (40 : Octet) ≠ turning.ownAddress ∧ turning.liveBank.directory.get 0 = some slot40 ∧
      slot40.logical = 40 ∧ turning.ownAddress ≠ 0 ∧ (0x1F : Octet).toNat ≤ 0x1F ∧
      stationAddress turning.ownAddress = true ∧
      (0x8D, Instr.restart 1 2 []) ∈ operations 1 2 []) := by
  have pass : ∀ s : State, s.liveBank = routed.liveBank → s.ownAddress = 10 →
      PassesBy s (request 1 91 1 3 []) := by
    intro s hl ho
    refine .inr (.inr (.inr ⟨rfl, by rw [ho]; decide, by decide, ?_⟩))
    rw [hl]
    exact of_directory (P := fun _ e => e.logical ≠ 91) (by decide)
  refine ⟨by decide, by decide, by decide, by decide, pass _ rfl rfl, rfl, pass _ rfl rfl, ?_, rfl,
    by decide⟩
  rintro (h | h | h | h)
  · simp [request] at h
  · simp [request] at h
  · simp [request] at h
  · exact h.2.2.2 0 slot40 (by decide) rfl

/-- An outbound READ. -/
def readOut : Outbound := { dest := 33, code := 3, body := [0, 0, 1] }

theorem out_read {s : State} (hl : s.liveBank = routed.liveBank) :
    requestOutbound s.liveBank slot40 (request 1 40 0x12 3 [0, 0, 1]) = .ok readOut := by
  rw [hl]; rfl

theorem witness_AdmissionOpensRecord :
    ReachesAdmission queued 1 40 0x12 [0, 0, 1] 0 slot40 ∧
    requestOutbound queued.liveBank slot40 (request 1 40 0x12 3 [0, 0, 1]) = .ok readOut ∧
    (queued.line 1).state.isDown = false ∧
    queued.activeCount 1 < (queued.line 1).settings.quota.toNat ∧ queued.record 1 = none ∧
    ∀ j : SlotId, j < 1 → queued.record j ≠ none :=
  ⟨reaches40 (queued) rfl rfl (by unfold TrunkReady; decide) _ (by decide)
      (by decide),
    out_read rfl, by decide, by decide, by decide, by decide⟩

/-- A table whose records are all DONE. -/
def allDone : State :=
  { routed with
    slots := Vector.ofFn fun i : SlotId =>
      { issue := 1, record := some { readRecord (.done (.ans []) 30000) none with
          target := 60, opening := octetOf (64 + i.val), admitStamp := i.val } } }

/-- Branch 2 FAULTED, and branch 2 with its quota of one record used up. -/
def faulted : State := routed.setLine 1 { routed.line 1 with state := .faulted, errors := 8 }
def busy : State :=
  queued.setLine 1 { queued.line 1 with settings := { defaultSettings with quota := 1 } }

theorem witness_AdmissionRefusesInOrder :
    ReachesAdmission queued 1 40 0x12 [0, 0, 0] 0 slot40 ∧
    requestOutbound queued.liveBank slot40 (request 1 40 0x12 3 [0, 0, 0]) = .error .range ∧
    ReachesAdmission faulted 1 40 0x12 [0, 0, 1] 0 slot40 ∧
    requestOutbound faulted.liveBank slot40 (request 1 40 0x12 3 [0, 0, 1]) = .ok readOut ∧
    (faulted.line 1).state.isDown = true ∧
    ReachesAdmission busy 1 40 0x12 [0, 0, 1] 0 slot40 ∧ (busy.line 1).state.isDown = false ∧
    (busy.line 1).settings.quota.toNat ≤ busy.activeCount 1 ∧
    ReachesAdmission allDone 1 40 0x12 [0, 0, 1] 0 slot40 ∧
    (allDone.line 1).state.isDown = false ∧
    allDone.activeCount 1 < (allDone.line 1).settings.quota.toNat ∧
    ∀ i, ∃ r, allDone.record i = some r ∧ r.deliveryStamp = none := by
  refine ⟨reaches40 (queued) rfl rfl (by unfold TrunkReady; decide) _ (by decide) (by decide),
    by rfl, reaches40 faulted rfl rfl (by unfold TrunkReady; decide) _ (by decide) (by decide),
    out_read rfl, by decide,
    reaches40 busy rfl rfl (by unfold TrunkReady; decide) _ (by decide) (by decide), by decide,
    by decide,
    reaches40 (allDone) rfl rfl (by unfold TrunkReady; decide) _ (by decide) (by decide),
    by decide, by decide, ?_⟩
  simp only [exists_record]
  decide

/-- A table whose records are all DELIVERED, slot 15 the earliest. -/
def allDelivered : State :=
  { routed with
    slots := Vector.ofFn fun i : SlotId =>
      { issue := 1, record := some { readRecord (.delivered (.ans []) 2000 (15 - i.val)) none with
          target := 60, opening := octetOf (64 + i.val), admitStamp := i.val } } }

theorem witness_AdmissionReclaimsEarliestDelivered :
    ReachesAdmission allDelivered 1 40 0x12 [0, 0, 1] 0 slot40 ∧
    requestOutbound allDelivered.liveBank slot40 (request 1 40 0x12 3 [0, 0, 1]) = .ok readOut ∧
    (allDelivered.line 1).state.isDown = false ∧
    allDelivered.activeCount 1 < (allDelivered.line 1).settings.quota.toNat ∧
    (∀ j, allDelivered.record j ≠ none) ∧ allDelivered.deliveryStamp 15 = some 0 ∧
    ∀ j later, j ≠ 15 → allDelivered.deliveryStamp j = some later → 0 < later := by
  refine ⟨reaches40 (allDelivered) rfl rfl (by unfold TrunkReady; decide) _ (by decide) (by decide),
    out_read rfl, by decide, by decide, by decide, by decide, ?_⟩
  have h : ∀ j : SlotId, j ≠ 15 → (allDelivered.deliveryStamp j).all (fun d => decide (0 < d)) = true := by
    decide
  intro j later hj hd
  have := h j hj
  simpa [hd] using this

theorem witness_DuplicateAnsweredWithTicket :
    TrunkReady queued ∧ stationAddress 1 = true ∧ stationAddress 40 = true ∧
    bodyFits [9] = true ∧ (40 : Octet) ≠ queued.ownAddress ∧ Represents queued 40 0 slot40 ∧
    NoTwinRecords queued ∧
    queued.record 0 = some (readRecord (.active .queued 5000) none) ∧
    Repeats (readRecord (.active .queued 5000) none) 1 0x11 40 := by
  refine ⟨by unfold TrunkReady; decide, by decide, by decide, by decide, by decide,
    by have := represents40; exact this, ?_, by decide, by unfold Repeats; decide⟩
  have one : ∀ j r, queued.record j = some r → j = 0 :=
    of_slots (P := fun j _ => j = 0) (by decide)
  intro i j r q hi hj _ _ _
  rw [one i r hi, one j q hj]

theorem witness_RequestTranslation :
    (∀ c, ¬ HasClass resetProfile .leaf 0x80 c) ∧
    HasClass resetProfile .relay 0x80 .control ∧ HasClass resetProfile .leaf 3 .read ∧
    HasClass resetProfile .leaf 9 .write ∧ HasClass resetProfile .leaf 0x10 .control ∧
    Denies .readOnly .write ∧ Denies .closed .read ∧ ¬ Denies .opened .write ∧
    ¬ ShapeFits .read [0, 0, 0] ∧ ShapeFits .read [0, 0, 48] ∧ ShapeFits .write [0, 0, 1] ∧
    ShapeFits .control (List.replicate 48 0) ∧
    registerSum profile1 [0, 0, 1] < 0 ∧ registerSum profile1 [0, 1, 1] = 0 ∧
    registerSum { profile1 with offset := 1 } [0xFF, 0xFE, 1] = 65535 ∧
    65535 < registerSum { profile1 with offset := 1 } [0xFF, 0xFF, 1] := by
  unfold HasClass Denies ShapeFits
  refine ⟨?_, by decide, by decide, by decide, by decide, by decide, by decide, by decide, by decide,
    by decide, by decide, by decide, by decide, by decide, by decide, by decide⟩
  rintro c (⟨h, -⟩ | ⟨h, -⟩)
  · exact absurd h (by decide)
  · cases h

theorem quotes_of {s : State} {p : Phase} {q : Option Octet}
    (hr : s.record 0 = some (readRecord p q)) (hi : s.issue 0 = 1) :
    Quotes s 0x10 1 0x11 0 (readRecord p q) := by
  refine ⟨rfl, hr, ?_, rfl, rfl⟩
  rw [hi]; rfl

theorem quotes_none : ∀ i r, ¬ Quotes queued 0x20 1 0x11 i r := by
  rintro i r ⟨hi, -, hn, -, -⟩
  have : i = 0 := Fin.ext hi
  subst this
  exact absurd hn (by decide)

theorem witness_CollectUnmatchedOrActive :
    ManagementReady queued ∧ stationAddress 1 = true ∧ (∀ i r, ¬ Quotes queued 0x20 1 0x11 i r) ∧
    Quotes queued 0x10 1 0x11 0 (readRecord (.active .queued 5000) none) ∧
    (readRecord (.active .queued 5000) none).isActive = true :=
  ⟨⟨by unfold TrunkReady; decide, by decide⟩, by decide, quotes_none,
    quotes_of (by decide) (by decide), by decide⟩

theorem witness_CollectDeliversResult :
    ManagementReady done ∧ ManagementReady delivered ∧ stationAddress 1 = true ∧
    Quotes done 0x10 1 0x11 0 (readRecord (.done (.ans [1, 2, 3, 4]) 30000) none) ∧
    Quotes delivered 0x10 1 0x11 0 (readRecord (.delivered (.ans [1, 2, 3, 4]) 2000 0) none) :=
  ⟨⟨by unfold TrunkReady; decide, by decide⟩, ⟨by unfold TrunkReady; decide, by decide⟩, by decide,
    quotes_of (by decide) (by decide), quotes_of (by decide) (by decide)⟩

theorem witness_BroadcastOfferedToEveryBranch :
    TrunkReady queued ∧ queued.ownAddress ≠ 0 ∧ stationAddress 1 = true ∧
    bodyFits (List.replicate 48 0) = true ∧ (0x1F : Octet).toNat ≤ 0x1F ∧
    (queued.line 1).state.isDown = false ∧ (queued.line 1).broadcast = none ∧
    (queued.line 1).state ≠ .idle ∧ (queued.line 0).state = .idle ∧
    (queued.line 0).broadcast = none ∧
    ((queued.setLine 0 { resetLine with state := .off }).line 0).state.isDown = true := by
  unfold TrunkReady; decide

theorem witness_RefusedOperationsChangeNothing :
    ManagementReady routed ∧ stationAddress 1 = true ∧ bodyFits [1, 2] = true ∧
    (0x7F : Octet).toNat < 0x80 ∧ 0x8D < (0x8E : Octet).toNat ∧
    (0x8D, Instr.restart 1 1 [1, 2]) ∈ operations 1 1 [1, 2] ∧
    bodyRefusal 0x8D [1, 2] = some 255 ∧ bodyRefusal 0x86 [9] = none ∧ bodyFits [9] = true := by
  refine ⟨ready_management, ?_⟩
  decide

/-- Section 8.13 and the ranges of R83, R85, R99 and R141 at their ends: the detail of each refusal. -/
theorem test_body_refusals :
    bodyRefusal 0x82 [64, 0, 5, 2, 0, 8, 3, 8] = some 0 ∧
    bodyRefusal 0x82 [63, 251, 5, 2, 0, 8, 3, 8] = some 1 ∧
    bodyRefusal 0x82 [63, 250, 4, 0, 0, 8, 3, 8] = some 4 ∧
    bodyRefusal 0x82 [63, 250, 4, 1, 0, 7, 2, 7] = none ∧
    bodyRefusal 0x85 [7, 32, 0] = some 255 ∧ bodyRefusal 0x85 [8, 49, 0] = some 0 ∧
    bodyRefusal 0x85 [7, 31, 0, 4] = some 3 ∧ bodyRefusal 0x85 [7, 48, 255] = none ∧
    bodyRefusal 0x89 [0, 0, 99, 0, 99] = some 1 ∧ bodyRefusal 0x89 [0, 0xEA, 0x60, 0x27, 0x11] = some 3 ∧
    bodyRefusal 0x89 [1, 0, 0, 0, 0] = some 255 ∧
    bodyRefusal 0x89 [4, 1, 5, 3, 232, 0x13, 0x88, 0x27, 0x10, 0xEA, 0x60, 16] = none ∧
    bodyRefusal 0x89 [2, 1, 4, 0, 50, 0, 100, 0, 200, 0x13, 0x88, 17] = some 11 ∧
    bodyRefusal 0x8C [4, 2] = some 1 := by decide

theorem witness_StagedWritesSetOneItem :
    ManagementReady routed ∧ stationAddress 250 = true ∧ entryInRange slot60 = true ∧
    entryInRange { slot40 with logical := 250, node := 250 } = true ∧ routed.otherRole = .staged ∧
    draining.otherRole = .draining ∧ ManagementReady draining :=
  ⟨ready_management, by decide, by decide, by decide, by decide, by decide,
    ⟨by unfold TrunkReady; decide, by decide⟩⟩

theorem witness_TablesReadFromSelectedBank :
    ManagementReady routed ∧ stationAddress 1 = true ∧ ((0 : Octet) = 0 ∨ (0 : Octet) = 1) ∧
    ((1 : Octet) = 0 ∨ (1 : Octet) = 1) ∧
    ManagementReady { routed with otherRole := .reseeding } :=
  ⟨ready_management, by decide, by decide, by decide, ⟨by unfold TrunkReady; decide, by decide⟩⟩

theorem witness_ReportsShowTheState : ManagementReady routed ∧ stationAddress 1 = true :=
  ⟨ready_management, by decide⟩

/-- Bank B with the slots of section 5.4 that fail the validation: 3 and 9 hold 40, 20 holds the own
address. -/
def staged (slots : List (Fin 64 × Octet)) : State :=
  { routed with
    bankB := slots.foldl (fun k p => k.setSlot p.1 (some { slot40 with logical := p.2 })) resetBank }

theorem witness_CommitChecksInOrder :
    ManagementReady routed ∧ stationAddress 1 = true ∧ bodyFits [] = true ∧
    ([] : List Octet).length ≠ 1 ∧ bodyFits [0] = true ∧ draining.otherRole = .draining ∧
    ManagementReady draining ∧ (staged []).otherRole = .staged ∧ (9 : Octet) ≠ (staged []).generation ∧
    (0 : Octet) = (staged [(3, 40), (9, 40)]).generation ∧
    SharesAddress (staged [(3, 40), (9, 40)]).otherBank 3 ∧
    (∀ j : Fin 64, j < 3 → ¬ SharesAddress (staged [(3, 40), (9, 40)]).otherBank j) ∧
    (∀ i, ¬ SharesAddress (staged [(20, 10)]).otherBank i) ∧
    HoldsAddress (staged [(20, 10)]).otherBank 20 10 ∧
    ∀ j : Fin 64, j < 20 → ¬ HoldsAddress (staged [(20, 10)]).otherBank j 10 := by
  refine ⟨ready_management, by decide, by decide, by decide, by decide, by decide,
    ⟨by unfold TrunkReady; decide, by decide⟩, by decide, by decide, by decide,
    ⟨9, { slot40 with logical := 40 }, { slot40 with logical := 40 }, by decide, by decide, by decide,
      rfl⟩, ?_, ?_, ⟨{ slot40 with logical := 10 }, by decide, rfl⟩, ?_⟩
  · have none : ∀ j : Fin 64, j < 3 → (staged [(3, 40), (9, 40)]).otherBank.directory.get j = none := by
      decide
    rintro j hj ⟨_, e, _, -, he, -⟩
    exact absurd ((none j hj).symm.trans he) (by simp)
  · have one : ∀ i e, (staged [(20, 10)]).otherBank.directory.get i = some e → i = 20 :=
      of_directory (P := fun i _ => i = 20) (by decide)
    rintro i ⟨j, e, f, hne, he, hf, -⟩
    exact hne ((one j f hf).trans (one i e he).symm)
  · have none : ∀ j : Fin 64, j < 20 → (staged [(20, 10)]).otherBank.directory.get j = none := by
      decide
    rintro j hj ⟨e, he, -⟩
    exact absurd ((none j hj).symm.trans he) (by simp)

theorem witness_CommitPromotesStagedBank :
    ManagementReady (staged [(3, 40)]) ∧ stationAddress 1 = true ∧ (staged [(3, 40)]).otherRole = .staged ∧
    (∀ i, ¬ SharesAddress (staged [(3, 40)]).otherBank i) ∧
    ∀ i, ¬ HoldsAddress (staged [(3, 40)]).otherBank i (staged [(3, 40)]).ownAddress := by
  have one : ∀ i e, (staged [(3, 40)]).otherBank.directory.get i = some e → i = 3 ∧ e.logical = 40 :=
    of_directory (P := fun i e => i = 3 ∧ e.logical = 40) (by decide)
  refine ⟨⟨by unfold TrunkReady; decide, by decide⟩, by decide, by decide, ?_, ?_⟩
  · rintro i ⟨j, e, f, hne, he, hf, -⟩
    exact hne ((one j f hf).1.trans (one i e he).1.symm)
  · rintro i ⟨e, he, ha⟩
    exact absurd ((one i e he).2.symm.trans ha) (by decide)

/-- The draining part with a record of the LIVE bank in the queue of branch 2, held back by the record
that drains. -/
def drainingWithLive : State :=
  let r : Record :=
    { readRecord (.active .queued 5000) none with opening := 0x12, bank := .b, admitStamp := 1 }
  let s := { draining with slots := draining.slots.set 1 { issue := 1, record := some r } }
  s.setLine 1 { s.line 1 with queue := [1] }

theorem witness_RetireRevokesDrainingRecords :
    ManagementReady routed ∧ stationAddress 1 = true ∧ routed.otherRole ≠ .draining ∧
    ManagementReady drainingWithLive ∧ drainingWithLive.otherRole = .draining ∧
    DrainCounted drainingWithLive ∧ QueueHoldsQueued drainingWithLive ∧
    OnLineIsAttempt drainingWithLive ∧ revokes drainingWithLive 0 = true ∧
    revokes drainingWithLive 1 = false :=
  ⟨ready_management, by decide, by decide, ⟨by unfold TrunkReady; decide, by decide⟩, by decide,
    by unfold DrainCounted; decide, queues_of (by decide) (by decide), attempts_of (by decide),
    by decide, by decide⟩

theorem witness_WriteLineTakesSettings :
    ManagementReady routed ∧ stationAddress 1 = true ∧ within 100 60000 (60000 : Word).toNat = true ∧
    within 100 10000 (100 : Word).toNat = true ∧ settingsInRange defaultSettings = true ∧
    defaultSettings.enable = true ∧ (routed.line 1).state.isDown = false ∧
    ((routed.setLine 1 { resetLine with state := .faulted }).line 1).state.isDown = true ∧
    settingsInRange { defaultSettings with enable := false } = true ∧
    ((routed.setLine 1 { resetLine with state := .off }).line 1).state = .off ∧
    (routed.line 1).state ≠ .off :=
  ⟨ready_management, by decide, by decide, by decide, by decide, by decide, by decide, by decide,
    by decide, by decide, by decide⟩

theorem witness_CancelCompletesActiveRecord :
    ManagementReady queued ∧ stationAddress 1 = true ∧ (∀ i r, ¬ Quotes queued 0x20 1 0x11 i r) ∧
    Quotes queued 0x10 1 0x11 0 (readRecord (.active .queued 5000) none) ∧
    (readRecord (.active .queued 5000) none).isActive = true ∧
    Quotes done 0x10 1 0x11 0 (readRecord (.done (.ans [1, 2, 3, 4]) 30000) none) ∧
    (readRecord (.done (.ans [1, 2, 3, 4]) 30000) none).isActive = false :=
  ⟨⟨by unfold TrunkReady; decide, by decide⟩, by decide, quotes_none,
    quotes_of (by decide) (by decide), by decide, quotes_of (by decide) (by decide), by decide⟩

theorem witness_CountersReadClearedSaturating : ManagementReady routed ∧ stationAddress 1 = true :=
  ⟨ready_management, by decide⟩

theorem witness_TurnaroundExpirySendsAnswer :
    turning.inReset = false ∧ turning.answer = .turnaround (ownAnswer routed 1 2 .ans 0x80 []) 2 ∧
    (∀ a n, routed.answer ≠ .turnaround a n) ∧ (trunkSends.framer 0).mode.isTransmitting = true := by
  refine ⟨by decide, rfl, ?_, by decide⟩
  intro a n h; cases h

theorem witness_RestartFollowsItsAnswer :
    ManagementReady routed ∧ stationAddress 1 = true ∧ (∀ a, routed.answer ≠ .sending a) ∧
    trunkSends.inReset = false ∧ trunkSends.answer = .sending (ownAnswer routed 1 2 .ans 0x8D []) ∧
    (trunkSends.framer 0).mode.isTransmitting = true ∧ trunkSends.pendingRestart = true ∧
    ({ trunkSends with pendingRestart := false }).pendingRestart = false := by
  refine ⟨ready_management, by decide, ?_, by decide, rfl, by decide, rfl, rfl⟩
  intro a h; cases h

/-- Slot 0 waits in the queue of an IDLE branch 2, with or without a broadcast before it. -/
def waiting (action : Machine.Action) (bc : Option Broadcast) : State :=
  (holding { readRecord (.active .queued 5000) none with action := action }).setLine 1
    { resetLine with queue := [0], broadcast := bc }

/-- Two records wait for branch 2: slot 1 is held back by slot 0 in BACKOFF, slot 2 is for another
target. -/
def heldBackFirst : State :=
  let r := readRecord (.active .queued 5000) none
  let s :=
    { inBackoff with
      slots := (inBackoff.slots.set 1
        { issue := 1, record := some { r with opening := 0x12, admitStamp := 1 } }).set 2
          { issue := 1, record := some { r with opening := 0x13, target := 42, admitStamp := 2 } } }
  s.setLine 1 { s.line 1 with queue := [1, 2] }

theorem witness_ControllerTakesClaimant :
    (queued.line 1).state ≠ .idle ∧
    ((waiting .ask (some ⟨3, []⟩)).line 1).state = .idle ∧
    ((waiting .ask (some ⟨3, []⟩)).line 1).broadcast = some ⟨3, []⟩ ∧
    (routed.line 1).state = .idle ∧ (routed.line 1).broadcast = none ∧
    (∀ i ∈ (drainingWithLive.line 1).queue, ¬ Eligible drainingWithLive i) ∧
    (drainingWithLive.line 1).state = .idle ∧ (drainingWithLive.line 1).broadcast = none ∧
    (heldBackFirst.line 1).state = .idle ∧ (heldBackFirst.line 1).broadcast = none ∧
    (heldBackFirst.line 1).queue = [1] ++ 2 :: [] ∧ ¬ Eligible heldBackFirst 1 ∧
    Eligible heldBackFirst 2 ∧
    (∀ action : Machine.Action, ((waiting action none).line 1).state = .idle ∧
      ((waiting action none).line 1).broadcast = none ∧
      ((waiting action none).line 1).queue = [] ++ 0 :: [] ∧
      (waiting action none).record 0 =
        some { readRecord (.active .queued 5000) none with action := action }) ∧
    ¬ HeldBack (waiting .ask none) (readRecord (.active .queued 5000) none) := by
  refine ⟨by decide, by decide, by decide, by decide, by decide, ?_, by decide, by decide, by decide,
    by decide, by decide, (Laws.not_Eligible_iff _ _).mpr (by decide),
    (Laws.eligible_iff_Eligible _ _).mp (by decide), fun _ => ⟨rfl, rfl, rfl, rfl⟩, ?_⟩
  · intro i hi
    rw [Laws.not_Eligible_iff]
    revert i; decide
  · rw [← Laws.heldBack_iff_HeldBack]; decide

theorem sends_sending (a : Attempt) (s : State) (h : s.inReset = false) : Sends (sends s a) 1 a := by
  refine ⟨h, ?_, ?_⟩
  · simp [sends, lineIn]
  · have : (2 : Line) = lineOf 1 := rfl
    simp [sends, lineIn, this, FramerMode.isTransmitting]

theorem witness_TransmitCompletionListensOrSettles :
    (∀ a, (routed.line 1).state ≠ .sending a) ∧ Sends sending 1 (.exchange attempt) ∧
    Sends (sends routed (.broadcast 1)) 1 (.broadcast 1) := by
  refine ⟨?_, sends_sending _ _ (by decide), sends_sending _ _ (by decide)⟩
  intro a h; cases h

theorem witness_EchoMismatchFailsOrFaults :
    (∀ a, (routed.line 1).state ≠ .sending a) ∧ Sends sending 1 (.exchange attempt) ∧
    (sending.line 1).errors < 7 ∧ attempt.record = some 0 ∧
    Sends (sends routed (.exchange orphan)) 1 (.exchange orphan) ∧ orphan.record = none ∧
    Sends (sends routed (.broadcast 1)) 1 (.broadcast 1) ∧
    (let s := sends (routed.setLine 1 { resetLine with errors := 7 }) (.broadcast 1)
     Sends s 1 (.broadcast 1) ∧ (s.line 1).errors = 7) := by
  refine ⟨?_, sends_sending _ _ (by decide), by decide, rfl, sends_sending _ _ (by decide), rfl,
    sends_sending _ _ (by decide), sends_sending _ _ (by decide), by decide⟩
  intro a h; cases h

theorem witness_WindowExpiryEndsListening :
    listening.inReset = false ∧ (listening.line 1).state = .listening attempt 50 ∧
    attempt.record = some 0 ∧ ((lineIn routed (.listening orphan 50)).line 1).state = .listening orphan 50 ∧
    orphan.record = none ∧ ∀ x w, (routed.line 1).state ≠ .listening x w := by
  refine ⟨by decide, by decide, rfl, by decide, rfl, ?_⟩
  intro x w h; cases h

/-- A COLLECT and an ASK to a RELAY. -/
def collecting : Exchange := { attempt with sought := .collect .relay 33 0x14 }
def askingRelay : Exchange := { attempt with sought := .ask .relay 33 }

/-- Branch 2 listens for slot 0 with its record a RELAY's, for a COLLECT and for an ASK. -/
def relayListening : State :=
  lineIn
    (holding { readRecord (.active .onLine 5000) (some 1) with
      kind := .relay
      action := .collect { address := 33, ticket := 0x14, opening := 9 } })
    (.listening collecting 50)
def relayAsked : State :=
  lineIn (holding { readRecord (.active .onLine 5000) (some 1) with kind := .relay })
    (.listening askingRelay 50)

theorem witness_AnswersJudgedByTheTable :
    ¬ ((answer .ans 3 []).dest = 11 ∧ (answer .ans 3 []).seq = attempt.seq) ∧
    (answer .ans 3 []).dest = 10 ∧ (answer .ans 3 []).seq = attempt.seq ∧
    attempt.sought = .ask .leaf 33 ∧ askingRelay.sought = .ask .relay 33 ∧
    collecting.sought = .collect .relay 33 0x14 ∧ (answer .ans 3 []).source = 33 ∧
    (answer .ans 3 []).source ≠ 34 := by decide

theorem witness_AcceptedAnswerCompletesRecord :
    Hears listening 1 (answer .ans 3 [1]) ∧ Hears listening 1 (answer .fault 16 []) ∧
    Hears listening 1 (answer .fault 15 []) ∧
    (listening.line 1).state = .listening attempt 50 ∧
    attempt.judge listening.ownAddress (answer .ans 3 [1]) = .accept ∧
    attempt.judge listening.ownAddress (answer .fault 16 []) = .accept ∧ attempt.record = some 0 ∧
    listening.record 0 = some (readRecord (.active .onLine 5000) (some 1)) ∧
    (readRecord (.active .onLine 5000) (some 1)).activeState = some .onLine ∧
    (listening.bank .a).directory.get 0 = some slot40 ∧ 16 ≤ (16 : Octet).toNat ∧
    (15 : Octet).toNat = (15 : Fin 16).val ∧
    Hears relayListening 1 (answer .fault 6 []) ∧
    collecting.judge relayListening.ownAddress (answer .fault 6 []) = .accept ∧
    (relayListening.record 0).map (fun r => (r.kind, r.action)) =
      some (.relay, .collect { address := 33, ticket := 0x14, opening := 9 }) ∧
    Hears relayAsked 1 (answer .fault 6 [1]) ∧
    askingRelay.judge relayAsked.ownAddress (answer .fault 6 [1]) = .accept ∧
    (relayAsked.record 0).map (fun r => (r.kind, r.action)) = some (.relay, .ask) := by
  unfold Hears; decide

theorem witness_HeldAndWaitDeferRecord :
    Hears relayListening 1 (answer .wait 0x14 []) ∧
    (relayListening.line 1).state = .listening collecting 50 ∧
    collecting.judge relayListening.ownAddress (answer .wait 0x14 []) = .accept ∧
    (relayListening.record 0).map (fun r => (r.phase, r.branch, r.branchSeq)) =
      some (.active .onLine 5000, 1, some 1) ∧
    Hears relayAsked 1 (answer .held 0x14 []) ∧
    (relayAsked.line 1).state = .listening askingRelay 50 ∧
    askingRelay.judge relayAsked.ownAddress (answer .held 0x14 []) = .accept ∧
    (relayAsked.record 0).map (fun r => (r.phase, r.branch, r.branchSeq)) =
      some (.active .onLine 5000, 1, some 1) := by
  unfold Hears; decide

theorem witness_RejectedOrphanedAndStrayTelegrams :
    Hears listening 1 (answer .held 0x14 []) ∧ (listening.line 1).state = .listening attempt 50 ∧
    attempt.record = some 0 ∧ attempt.judge listening.ownAddress (answer .held 0x14 []) = .bad ∧
    orphan.record = none ∧ orphan.judge 10 (answer .ans 3 []) ≠ .stray ∧
    attempt.judge listening.ownAddress { answer .ans 3 [] with seq := 2 } = .stray ∧
    Hears routed 1 (answer .ans 3 []) ∧ (∀ x w, (routed.line 1).state ≠ .listening x w) ∧
    ∀ a, (routed.line 1).state ≠ .sending a := by
  refine ⟨by unfold Hears; decide, by decide, rfl, by decide, rfl, by decide, by decide,
    by unfold Hears; decide, ?_, ?_⟩
  · intro x w h; cases h
  · intro a h; cases h

theorem witness_SettleExpiryEntersIdle :
    queued.inReset = false ∧ (queued.line 1).state = .settling 4 ∧
    ∀ n, (routed.line 1).state ≠ .settling n := by
  refine ⟨by decide, by decide, ?_⟩
  intro n h; cases h

theorem witness_CompletionEffects :
    queued.record 0 = some (readRecord (.active .queued 5000) none) ∧
    listening.record 0 = some (readRecord (.active .onLine 5000) (some 1)) ∧
    attempt.record = some 0 ∧ (listening.line 1).state = .listening attempt 50 ∧
    (sending.line 1).state = .sending (.exchange attempt) ∧
    inBackoff.record 0 = some (readRecord (.active (.backoff 100) 5000) (some 1)) ∧
    draining.otherRole = .draining ∧
    (draining.record 0).map Record.bank = some draining.live.other ∧
    LineState.record ((lineIn listening .idle).line 1).state ≠ some 0 := by decide

theorem witness_FailureRetriesOrCompletes :
    listening.record 0 = some (readRecord (.active .onLine 5000) (some 1)) ∧
    0 < (readRecord (.active .onLine 5000) (some 1)).retries ∧
    0 < (listening.line 1).settings.delay.toNat ∧
    ((listening.setLine 1
      { listening.line 1 with settings := { defaultSettings with delay := 0 } }).line 1).settings.delay = 0 ∧
    ((holding { readRecord (.active .onLine 5000) (some 1) with retries := 0 }).record 0).map
      Record.retries = some 0 := by decide

theorem queue_queued : QueueHoldsQueued queued := queues_of (by decide) (by decide)

theorem witness_LineGoingDownCompletesRecords :
    (LineState.off = .off ∨ LineState.off = .faulted) ∧ QueueHoldsQueued queued ∧
    (queued.framer (lineOf 1)).mode.isTransmitting = false ∧
    (sending.framer (lineOf 1)).mode.isTransmitting = true :=
  ⟨.inl rfl, queue_queued, by decide, by decide⟩

theorem witness_RecordTimersExpire :
    queued.inReset = false ∧ queued.record 1 = none ∧
    queued.record 0 = some (readRecord (.active .queued 5000) none) ∧
    listening.record 0 = some (readRecord (.active .onLine 5000) (some 1)) ∧
    done.record 0 = some (readRecord (.done (.ans [1, 2, 3, 4]) 30000) none) ∧
    delivered.record 0 = some (readRecord (.delivered (.ans [1, 2, 3, 4]) 2000 0) none) := by decide

theorem witness_WaitExpiryRejoinsQueue :
    inBackoff.inReset = false ∧
    inBackoff.record 0 = some (readRecord (.active (.backoff 100) 5000) (some 1)) ∧
    (holding (readRecord (.active (.deferred 200) 5000) none)).record 0 =
      some (readRecord (.active (.deferred 200) 5000) none) ∧
    (routed.bank .a).directory.get 0 = some slot40 ∧
    ∀ r, done.record 0 = some r → ∀ w, r.activeState ≠ some (.backoff w) ∧
      r.activeState ≠ some (.deferred w) := by
  refine ⟨by decide, by decide, by decide, by decide, ?_⟩
  intro r hr w
  have : r.activeState = none :=
    of_slots (s := done) (P := fun _ r => r.activeState = none) (by decide) 0 r hr
  simp [this]

theorem witness_ReseedCopiesLiveBank :
    ({ routed with otherRole := .reseeding }).inReset = false ∧
    ({ routed with otherRole := .reseeding }).otherRole = .reseeding ∧
    routed.otherRole ≠ .reseeding := by decide

theorem witness_TicketsNameSlotAndIssue : queued.ticket 0 = queued.ticket 0 := rfl

/-- Branch 2 listens for slot 0, and a telegram that completes it waits as a command. -/
def live : State := { listening with pending := [.branchTelegram 1 (answer .ans 3 [1])] }

theorem one_record : ∀ i r, live.record i = some r → i = 0 ∧ r = readRecord (.active .onLine 5000) (some 1) :=
  of_slots (P := fun i r => i = 0 ∧ r = readRecord (.active .onLine 5000) (some 1)) (by decide)

/-- One state that meets every invariant, and takes a step. -/
theorem witness_invariants :
    AttentionFollowsDone live ∧ DrainCounted live ∧ DriverFollowsFramer live ∧
    FramerFollowsOwner live ∧ QueueHoldsQueued live ∧ OnLineIsAttempt live ∧ DownLineEmpty live ∧
    NoIdleClaimant live ∧ NoTwinRecords live ∧ StampsOrdered live ∧ LiveDirectorySound live ∧
    CapturedSlotKept live ∧ DirectoryInRange live ∧ SettingsInRange live ∧ ErrorCountBounded live ∧
    PendingRateDiffers live ∧ OwnAddressFromStraps live ∧ RecordFieldsPresent live ∧
    AttemptHoldsRecord live ∧ step live = .next (run
      (.branchTelegram 1 (answer .ans 3 [1])) { live with pending := [] }) := by
  refine ⟨by unfold AttentionFollowsDone; decide, by unfold DrainCounted; decide,
    ⟨by decide, fun b => ⟨by revert b; decide, ?_⟩⟩, by unfold FramerFollowsOwner; decide,
    queues_of (by decide) (by decide), attempts_of (by decide),
    by unfold DownLineEmpty; decide, ?_, ?_, ⟨?_, ?_⟩,
    by unfold LiveDirectorySound; decide, ?_, ?_, by unfold SettingsInRange; decide,
    by unfold ErrorCountBounded; decide, ?_, by unfold OwnAddressFromStraps; decide, ?_, ?_, rfl⟩
  · intro octets first second rest h
    have : ∀ b : Branch, (live.framer (lineOf b)).mode = .hunt := by decide
    rw [this b] at h; cases h
  · intro b _
    have : ∀ b : Branch, (live.line b).broadcast = none ∧ (live.line b).queue = [] := by decide
    simp [this b]
  · intro i j r q hi hj _ _ _
    rw [(one_record i r hi).1, (one_record j q hj).1]
  · intro i r hi
    rw [(one_record i r hi).2]; decide
  · intro i j r q hi hj _
    rw [(one_record i r hi).1, (one_record j q hj).1]
  · intro i r hi _
    rw [(one_record i r hi).2]
    exact ⟨slot40, by decide, rfl, rfl, by decide⟩
  · intro k
    cases k
    · exact of_directory (P := fun _ e => entryInRange e = true) (by decide)
    · exact of_directory (P := fun _ e => entryInRange e = true) (by decide)
  · intro b
    have : ∀ b : Branch, (live.line b).pendingRate = none := by decide
    rw [this b]
    revert b; decide
  · intro i r hi
    rw [(one_record i r hi).2]
    refine ⟨fun _ => by decide, ?_, ?_, ?_, ?_⟩ <;>
      simp [readRecord, Record.activeState, Record.isActive]
  · intro b x i r hx hxi hi
    have hline : ∀ b : Branch,
        LineState.exchange (live.line b).state = if b = 1 then some attempt else none := by decide
    rw [hline b] at hx
    split at hx
    · obtain rfl := Option.some.inj hx
      rw [(one_record i r hi).2]
      exact ⟨rfl, fun _ => rfl, fun link h => by cases h⟩
    · cases hx

/-- States that meet the invariants of the pending restart and of the delivery stamps where they say
something: a restart waits for its answer, and one record is DELIVERED. -/
theorem witness_RestartHasAnswer :
    RestartHasAnswer trunkSends ∧ trunkSends.pendingRestart = true ∧
    step trunkSends = .next (after trunkSends) :=
  ⟨fun _ => ⟨_, .inl rfl, rfl, rfl, rfl⟩, rfl, rfl⟩

theorem witness_DeliveriesOrdered :
    DeliveriesOrdered delivered ∧ delivered.deliveryStamp 0 = some 0 ∧
    step delivered = .next (after delivered) := by
  have one : ∀ i stamp, delivered.deliveryStamp i = some stamp → i = 0 ∧ stamp = 0 := by
    have h : ∀ i : SlotId,
        (delivered.deliveryStamp i).all (fun d => decide (i = 0 ∧ d = 0)) = true := by decide
    intro i stamp hi
    have := h i
    simpa [hi] using this
  refine ⟨⟨?_, ?_⟩, by decide, rfl⟩
  · intro i stamp hi
    rw [(one i stamp hi).2]; decide
  · intro i j stamp hi hj
    rw [(one i stamp hi).1, (one j stamp hj).1]

theorem witness_LiveBankKeptUnlessPromoted :
    exec .reseedCompletion routed = .next (run .reseedCompletion routed) ∧
    (∀ cause, Instr.reseedCompletion ≠ .resetAssert cause) ∧
    (∀ a r, Instr.reseedCompletion ≠ .resetRelease a r) ∧
    ∀ a r, Instr.reseedCompletion ≠ .powerOnRelease a r := by
  refine ⟨rfl, ?_, ?_, ?_⟩ <;> intros <;> simp

theorem witness_BranchEventsStayOnTheirBranch :
    OnLineIsAttempt live ∧ QueueHoldsQueued live ∧
    isEventOf (.branchTelegram 1 (answer .ans 3 [1])) 1 ∧
    exec (.branchTelegram 1 (answer .ans 3 [1])) live =
      .next (run (.branchTelegram 1 (answer .ans 3 [1])) live) :=
  ⟨witness_invariants.2.2.2.2.2.1, witness_invariants.2.2.2.2.1,
    .inr (.inr (.inr (.inl ⟨_, rfl⟩))), rfl⟩

end Sys2Proof.Tests
end

/-! SUPPORT. The transmissions: what a framer, its DE output and the owner of its line keep of each
other in every operation (R15 to R18, R102, R137, R187). -/

namespace Sys2Proof.Transmissions

open Sys2Proof.Machine Sys2Proof.Safety Sys2Proof.Laws

/-! ### The soundness of a line's outputs -/

@[simp] theorem isTransmitting_hunt : FramerMode.hunt.isTransmitting = false := rfl

@[simp] theorem isTransmitting_transmitting (octets echoes : List Octet) :
    (FramerMode.transmitting octets echoes).isTransmitting = true := rfl

theorem not_isTransmitting_of_inProgress {m : FramerMode} (h : m.inProgress = true) :
    m.isTransmitting = false := by
  cases m with
  | transmitting => simp [FramerMode.inProgress] at h
  | _ => rfl

@[simp] theorem isSending_sending (a : Attempt) : LineState.isSending (.sending a) = true := rfl

@[simp] theorem isSending_idle : LineState.isSending .idle = false := rfl

@[simp] theorem isSending_listening (x : Exchange) (w : Word) :
    LineState.isSending (.listening x w) = false := rfl

@[simp] theorem isSending_settling (n : Nat) : LineState.isSending (.settling n) = false := rfl

@[simp] theorem isSending_empty : AnswerBuffer.isSending .empty = false := rfl

@[simp] theorem isSending_turnaround (a : Telegram) (n : Nat) :
    AnswerBuffer.isSending (.turnaround a n) = false := rfl

@[simp] theorem isSending_answer (a : Telegram) : AnswerBuffer.isSending (.sending a) = true := rfl

/-- The readings that a change of the answer buffer alone leaves as they were. -/
@[simp] theorem withAnswer_reads (s : State) (a : AnswerBuffer) :
    (∀ l, ({ s with answer := a } : State).framer l = s.framer l) ∧
    ∀ b, ({ s with answer := a } : State).line b = s.line b := ⟨fun _ => rfl, fun _ => rfl⟩

theorem not_isSending_of_isDown {st : LineState} (h : st.isDown = true) :
    LineState.isSending st = false := by
  cases st with
  | sending => simp [LineState.isDown] at h
  | _ => rfl

/-- Framer 0 transmits, and DE0 is high, exactly while the answer buffer is SENDING. -/
def TrunkSound (s : State) : Prop :=
  s.driverEnable.get 0 = (s.framer 0).mode.isTransmitting ∧
  (s.framer 0).mode.isTransmitting = AnswerBuffer.isSending s.answer

/-- The framer of a branch transmits exactly while its line is SENDING; its DE is high only then,
and while the echoes of more octets than the last are expected. -/
structure BranchSound (s : State) (b : Branch) : Prop where
  owner : (s.framer (lineOf b)).mode.isTransmitting = LineState.isSending (s.line b).state
  driver : s.driverEnable.get (lineOf b) = true → (s.framer (lineOf b)).mode.isTransmitting = true
  echoes : ∀ octets first second rest,
    (s.framer (lineOf b)).mode = .transmitting octets (first :: second :: rest) →
    s.driverEnable.get (lineOf b) = true

/-- The invariant of the statement, line by line. -/
structure Sound (s : State) : Prop where
  trunk : TrunkSound s
  branch : ∀ b, BranchSound s b

theorem sound_iff (s : State) : Sound s ↔ DriverFollowsFramer s ∧ FramerFollowsOwner s := by
  constructor
  · rintro ⟨⟨hd, ha⟩, hb⟩
    exact ⟨⟨hd, fun b => ⟨(hb b).driver, (hb b).echoes⟩⟩, ha, fun b => (hb b).owner⟩
  · rintro ⟨⟨hd, hb⟩, ha, ho⟩
    exact ⟨⟨hd, ha⟩, fun b => ⟨ho b, (hb b).1, (hb b).2⟩⟩

/-- A branch whose line is not SENDING has its DE low and its framer not transmitting. -/
theorem BranchSound.quiet {s : State} {b : Branch} (h : BranchSound s b)
    (hl : LineState.isSending (s.line b).state = false) :
    s.driverEnable.get (lineOf b) = false ∧
      (s.framer (lineOf b)).mode.isTransmitting = false := by
  have hm := h.owner.trans hl
  exact ⟨by simpa [hm] using h.driver, hm⟩

/-- A line that is quiet in its framer, its DE and its controller is sound. -/
theorem BranchSound.of_quiet {s : State} {b : Branch}
    (hm : (s.framer (lineOf b)).mode.isTransmitting = false)
    (hd : s.driverEnable.get (lineOf b) = false)
    (hl : LineState.isSending (s.line b).state = false) : BranchSound s b where
  owner := hm.trans hl.symm
  driver := by simp [hd]
  echoes := fun octets first second rest h => by simp [h] at hm

/-- A line that has just begun to send is sound. -/
theorem BranchSound.of_high {s : State} {b : Branch}
    (hm : (s.framer (lineOf b)).mode.isTransmitting = true)
    (hd : s.driverEnable.get (lineOf b) = true)
    (hl : LineState.isSending (s.line b).state = true) : BranchSound s b where
  owner := hm.trans hl.symm
  driver := fun _ => hm
  echoes := fun _ _ _ _ _ => hd

theorem BranchSound.congr {s t : State} {b : Branch} (h : BranchSound s b)
    (hd : t.driverEnable.get (lineOf b) = s.driverEnable.get (lineOf b))
    (hf : (t.framer (lineOf b)).mode = (s.framer (lineOf b)).mode)
    (hl : LineState.isSending (t.line b).state = LineState.isSending (s.line b).state) :
    BranchSound t b where
  owner := by rw [hf, hl]; exact h.owner
  driver := by rw [hd, hf]; exact h.driver
  echoes := by rw [hd, hf]; exact h.echoes

/-- Two states with the same outputs, framers and sending owners. -/
structure SameOutputs (s t : State) : Prop where
  drivers : t.driverEnable = s.driverEnable
  framers : t.framers = s.framers
  answer : AnswerBuffer.isSending t.answer = AnswerBuffer.isSending s.answer
  lines : ∀ b, LineState.isSending (t.line b).state = LineState.isSending (s.line b).state

theorem Sound.of_same {s t : State} (hs : Sound s) (h : SameOutputs s t) : Sound t := by
  have hf : ∀ l, t.framer l = s.framer l := fun l => by simp only [State.framer, h.framers]
  refine ⟨⟨?_, ?_⟩, fun b => (hs.branch b).congr (by rw [h.drivers]) (by rw [hf]) (h.lines b)⟩
  · rw [h.drivers, hf]; exact hs.trunk.1
  · rw [hf, h.answer]; exact hs.trunk.2

/-- A change of one branch: the trunk and the other branches stay as they were. -/
theorem Sound.of_branch {s t : State} {b : Branch} (hs : Sound s)
    (hd : ∀ l, l ≠ lineOf b → t.driverEnable.get l = s.driverEnable.get l)
    (hf : ∀ l, l ≠ lineOf b → t.framer l = s.framer l) (ha : t.answer = s.answer)
    (hl : ∀ c, c ≠ b → t.line c = s.line c) (hb : BranchSound t b) : Sound t := by
  refine ⟨?_, fun c => ?_⟩
  · have h0 : (0 : Line) ≠ lineOf b := zero_ne_lineOf b
    simpa only [TrunkSound, hd 0 h0, hf 0 h0, ha] using hs.trunk
  · by_cases hc : c = b
    · exact hc ▸ hb
    · have hne : lineOf c ≠ lineOf b := fun e => hc (lineOf_inj.mp e)
      exact (hs.branch c).congr (hd _ hne) (by rw [hf _ hne]) (by rw [hl c hc])

/-! ### Operations that leave the outputs as they were -/

theorem leaveLine_isSending (s : State) (i : SlotId) (r : Record) (b : Branch) :
    LineState.isSending ((s.leaveLine i r).line b).state =
      LineState.isSending (s.line b).state := by
  by_cases hb : b = r.branch
  · subst hb
    simp only [State.leaveLine]
    split
    · simp
    · simp only [State.orphan]
      split
      · rename_i h; simp [h]
      · rename_i h; simp [h]
      · rfl
    · rfl
  · rw [leaveLine_line_of_ne s i r hb]

theorem complete_isSending (s : State) (i : SlotId) (x : Result) (b : Branch) :
    LineState.isSending ((s.complete i x).line b).state = LineState.isSending (s.line b).state := by
  simp only [State.complete]
  split
  · rfl
  · split
    · simp only [State.assertAttention, State.line, depart_frame]
      exact leaveLine_isSending s i _ b
    · rfl

theorem complete_same (s : State) (i : SlotId) (x : Result) : SameOutputs s (s.complete i x) :=
  ⟨by simp, by simp, by simp, complete_isSending s i x⟩

theorem completeAll_same (s : State) (p : Record → Bool) (x : Result) :
    SameOutputs s (s.completeAll p x) :=
  ⟨by simp, by simp, by simp, fun b =>
    foldl_keeps (fun s => LineState.isSending (s.line b).state)
      (fun s i => by split <;> simp [complete_isSending]) _ s⟩

theorem countRxCheck_sound {s : State} (l : Line) (h : Sound s) : Sound (s.countRxCheck l) :=
  h.of_same ⟨by simp, by simp, by simp, by simp⟩

theorem countRxTorn_sound {s : State} (l : Line) (h : Sound s) : Sound (s.countRxTorn l) :=
  h.of_same ⟨by simp, by simp, by simp, by simp⟩

theorem countRxMalformed_sound {s : State} (l : Line) (h : Sound s) :
    Sound (s.countRxMalformed l) :=
  h.of_same ⟨by simp, by simp, by simp, by simp⟩

theorem countBranch_sound {s : State} (b : Branch) (c : BranchCounter) (h : Sound s) :
    Sound (s.countBranch b c) := h.of_same ⟨by simp, by simp, by simp, by simp⟩

theorem countTrunk_sound {s : State} (c : TrunkCounter) (h : Sound s) : Sound (s.countTrunk c) :=
  h.of_same ⟨by simp, by simp, by simp, by simp⟩

theorem setRecord_sound {s : State} (i : SlotId) (r : Option Record) (h : Sound s) :
    Sound (s.setRecord i r) := h.of_same ⟨by simp, by simp, by simp, by simp⟩

theorem complete_sound {s : State} (i : SlotId) (x : Result) (h : Sound s) :
    Sound (s.complete i x) := h.of_same (complete_same s i x)

/-- A controller's fields change, but not between SENDING and another state. -/
theorem setLine_sound {s : State} {b : Branch} {ln : BranchLine} (h : Sound s)
    (hl : LineState.isSending ln.state = LineState.isSending (s.line b).state) :
    Sound (s.setLine b ln) := by
  refine h.of_same ⟨by simp, by simp, by simp, fun c => ?_⟩
  by_cases hc : c = b
  · simp [hc, hl]
  · simp [hc]

/-- An answer is placed in a buffer that is not SENDING. -/
theorem placeAnswer_sound {s : State} (a : Telegram) (h : Sound s)
    (ha : AnswerBuffer.isSending s.answer = false) : Sound (s.placeAnswer a) :=
  h.of_same ⟨by simp, by simp, by simp [ha], by simp⟩

theorem restartTurnaround_sound {s : State} (l : Line) (h : Sound s) :
    Sound (s.restartTurnaround l) := by
  refine h.of_same ⟨by simp, by simp, ?_, by simp⟩
  simp only [State.restartTurnaround]
  split
  · split
    · rename_i ha; simp [ha]
    · rfl
    · rfl
  · rfl

/-! ### Operations that begin a transmission -/

theorem takeBroadcast_sound {s : State} (b : Branch) (bc : Broadcast) (h : Sound s) :
    Sound (s.takeBroadcast b bc) := by
  refine h.of_branch (b := b) ?_ ?_ (by simp) ?_ (.of_high ?_ ?_ ?_)
  · intro l hl; simp [State.takeBroadcast, hl]
  · intro l hl; simp [State.takeBroadcast, hl]
  · intro c hc; simp [hc]
  all_goals simp [State.takeBroadcast]

theorem takeRecord_sound {s : State} {i : SlotId} {r : Record} (hr : s.record i = some r)
    (b : Branch) (h : Sound s) : Sound (s.takeRecord b i) := by
  refine h.of_branch (b := b) ?_ ?_ (by simp) ?_ (.of_high ?_ ?_ ?_)
  · intro l hl; simp [takeRecord_eq hr, hl]
  · intro l hl; simp [takeRecord_eq hr, hl]
  · intro c hc; simp [takeRecord_line hr, hc]
  all_goals simp [takeRecord_eq hr]

theorem look_sound {s : State} (b : Branch) (h : Sound s) : Sound (s.look b) := by
  refine look_keeps Sound h (fun bc _ _ => takeBroadcast_sound b bc h) ?_
  intro _ i _ _ _ _ _ he
  obtain ⟨r, hr, -⟩ := (eligible_iff s i).mp he
  exact takeRecord_sound hr b h

theorem joinQueue_sound {s : State} (b : Branch) (i : SlotId) (h : Sound s) :
    Sound (s.joinQueue b i) := look_sound b (setLine_sound h rfl)

theorem lookAll_sound {s : State} (h : Sound s) : Sound s.lookAll :=
  foldl_keeps_pred Sound (fun _ b hs => look_sound b hs) _ h

theorem sendAnswer_sound {s : State} (h : Sound s) : Sound s.sendAnswer := by
  simp only [State.sendAnswer]
  split
  · rename_i a _ _
    exact ⟨⟨by simp, by simp⟩, fun b => (h.branch b).congr (by simp) (by simp) (by simp)⟩
  · exact h
  · exact h

/-! ### The end of a branch transmission -/

/-- Every line but one branch is sound, and that branch's framer and DE are quiet: what a cut leaves
until the controller has left SENDING. -/
structure SoundBut (s : State) (b : Branch) : Prop where
  trunk : TrunkSound s
  others : ∀ c, c ≠ b → BranchSound s c
  mode : (s.framer (lineOf b)).mode.isTransmitting = false
  driver : s.driverEnable.get (lineOf b) = false

theorem Sound.but {s : State} {b : Branch} (h : Sound s)
    (hl : LineState.isSending (s.line b).state = false) : SoundBut s b :=
  ⟨h.trunk, fun c _ => h.branch c, ((h.branch b).quiet hl).2, ((h.branch b).quiet hl).1⟩

/-- The end of a transmission leaves its line quiet, and a line that is quiet already as it is. -/
theorem endTransmission_but {s : State} {b : Branch} (ht : TrunkSound s)
    (ho : ∀ c, c ≠ b → BranchSound s c)
    (hd : s.driverEnable.get (lineOf b) = true → (s.framer (lineOf b)).mode.isTransmitting = true) :
    SoundBut (s.endTransmission (lineOf b)) b where
  trunk := by simpa [TrunkSound, endTransmission_driver] using ht
  others := fun c hc =>
    (ho c hc).congr (by simp [endTransmission_driver, hc]) (by simp [hc]) (by simp)
  mode := by
    by_cases hm : (s.framer (lineOf b)).mode.isTransmitting = true <;> simp [hm]
  driver := by
    by_cases hm : (s.framer (lineOf b)).mode.isTransmitting = true
    · simp [endTransmission_driver, hm]
    · simpa [endTransmission_driver, hm] using hd

theorem Sound.endTransmission {s : State} (b : Branch) (h : Sound s) :
    SoundBut (s.endTransmission (lineOf b)) b :=
  endTransmission_but h.trunk (fun c _ => h.branch c) (h.branch b).driver

theorem SoundBut.endTransmission {s : State} {b : Branch} (h : SoundBut s b) :
    SoundBut (s.endTransmission (lineOf b)) b :=
  endTransmission_but h.trunk h.others (by simp [h.driver])

theorem SoundBut.of_frame {s t : State} {b : Branch} (h : SoundBut s b)
    (hd : t.driverEnable = s.driverEnable) (hf : t.framers = s.framers) (ha : t.answer = s.answer)
    (hl : ∀ c, c ≠ b → t.line c = s.line c) : SoundBut t b := by
  have hfr : ∀ l, t.framer l = s.framer l := fun l => by simp only [State.framer, hf]
  exact ⟨by simpa only [TrunkSound, hd, hfr, ha] using h.trunk,
    fun c hc => (h.others c hc).congr (by rw [hd]) (by rw [hfr]) (by rw [hl c hc]),
    by rw [hfr]; exact h.mode, by rw [hd]; exact h.driver⟩

theorem SoundBut.countBranch {s : State} {b : Branch} (h : SoundBut s b) (c : BranchCounter) :
    SoundBut (s.countBranch b c) b := h.of_frame (by simp) (by simp) (by simp) (by simp)

theorem SoundBut.setLine {s : State} {b : Branch} (h : SoundBut s b) (ln : BranchLine) :
    SoundBut (s.setLine b ln) b :=
  h.of_frame (by simp) (by simp) (by simp) (fun c hc => by simp [hc])

/-- Where the controller of the quiet line is not SENDING, every line is sound. -/
theorem SoundBut.sound {s : State} {b : Branch} (h : SoundBut s b)
    (hl : LineState.isSending (s.line b).state = false) : Sound s := by
  refine ⟨h.trunk, fun c => ?_⟩
  by_cases hc : c = b
  · subst hc; exact .of_quiet h.mode h.driver hl
  · exact h.others c hc

theorem SoundBut.setLineState {s : State} {b : Branch} (h : SoundBut s b) {st : LineState}
    (hl : LineState.isSending st = false) : Sound (s.setLineState b st) :=
  SoundBut.sound (h.setLine _) (by simpa using hl)

/-- The controller leaves or keeps out of SENDING, while its framer does not transmit. -/
theorem setLineState_sound {s : State} {b : Branch} {st : LineState} (h : Sound s)
    (hl : LineState.isSending (s.line b).state = false) (hst : LineState.isSending st = false) :
    Sound (s.setLineState b st) := (h.but hl).setLineState hst

/-- A line that goes down from any state, its transmission ended or still to be cut (R43, R122). -/
theorem lineDown_sound {s : State} {b : Branch} {down : LineState}
    (h : SoundBut (s.endTransmission (lineOf b)) b) (hdown : down.isDown = true) :
    Sound (s.lineDown b down) := by
  have count : ∀ {u : State} (p : Bool), SoundBut u b →
      SoundBut (if p then u.countBranch b .bcastDropped else u) b := by
    intro u p hu
    split
    · exact hu.countBranch _
    · exact hu
  simp only [State.lineDown]
  refine Sound.of_same ?_ (completeAll_same _ _ _)
  exact ((count _ (count _ h)).setLine _).sound (by simpa using not_isSending_of_isDown hdown)

theorem reportFailure_sound {s : State} (i : SlotId) (f : Failure) (h : Sound s) :
    Sound (s.reportFailure i f) := by
  obtain ⟨e, -⟩ | ⟨r, life, -, -, ⟨-, e⟩ | ⟨-, -, e⟩ | ⟨-, -, e⟩⟩ := reportFailure_cases s i f
  · rwa [e]
  · rw [e]; exact complete_sound _ _ (setRecord_sound _ _ h)
  · rw [e]; exact joinQueue_sound _ _ (setRecord_sound _ _ h)
  · rw [e]; exact setRecord_sound _ _ h

theorem reportAnswer_sound {s : State} (i : SlotId) (t : Telegram) (h : Sound s) :
    Sound (s.reportAnswer i t) := by
  obtain ⟨e, -⟩ | ⟨r, life, -, -, ⟨x, e, -⟩ | ⟨action, e, -⟩⟩ := reportAnswer_cases s i t
  · rwa [e]
  · rw [e]; exact complete_sound _ _ h
  · rw [e]; exact setRecord_sound _ _ h

/-! ### The events of a branch line -/

theorem acceptAnswer_sound {s : State} {b : Branch} (x : Exchange) (t : Telegram) (h : Sound s)
    (hl : LineState.isSending (s.line b).state = false) : Sound (s.acceptAnswer b x t) := by
  simp only [State.acceptAnswer]
  split
  · exact reportAnswer_sound _ _ (setLineState_sound h hl rfl)
  · exact setLineState_sound (countBranch_sound _ _ h) (by simpa using hl) rfl

theorem rejectAnswer_sound {s : State} {b : Branch} (x : Exchange) (h : Sound s)
    (hl : LineState.isSending (s.line b).state = false) : Sound (s.rejectAnswer b x) := by
  have settled : ∀ c, Sound ((s.countBranch b c).settle b) := fun c =>
    setLineState_sound (countBranch_sound _ _ h) (by simpa using hl) rfl
  simp only [State.rejectAnswer]
  split
  · exact reportFailure_sound _ _ (settled _)
  · exact settled _

theorem branchTake_sound {s : State} (b : Branch) (t : Telegram) (h : Sound s) :
    Sound (s.branchTake b t) := by
  simp only [State.branchTake]
  split
  · rename_i x w hst
    have hl : LineState.isSending (s.line b).state = false := by rw [hst]; rfl
    split
    · exact acceptAnswer_sound x t h hl
    · exact rejectAnswer_sound x h hl
    · exact countBranch_sound _ _ h
  · exact h
  all_goals exact countBranch_sound _ _ h

theorem transmissionDone_sound {s : State} (b : Branch) (h : Sound s) :
    Sound (s.transmissionDone b) := by
  simp only [State.transmissionDone]
  split
  · have ended := (h.endTransmission b).setLine
      { (s.endTransmission (lineOf b)).line b with errors := 0 }
    split
    · exact (ended.countBranch _).setLineState rfl
    · exact (ended.countBranch _).setLineState rfl
  all_goals exact h

theorem attemptFailed_sound {s : State} (b : Branch) (a : Attempt) (h : Sound s) :
    Sound (s.attemptFailed b a) := by
  simp only [State.attemptFailed]
  split
  · split
    · exact reportFailure_sound _ _ h
    · exact h
  · exact countBranch_sound _ _ h

theorem echoFault_sound {s : State} (b : Branch) (h : Sound s) : Sound (s.echoFault b) := by
  simp only [State.echoFault]
  split
  · have ended := ((h.endTransmission b).countBranch .lineErrors).setLine
      { ((s.endTransmission (lineOf b)).countBranch b .lineErrors).line b with
        errors :=
          (((s.endTransmission (lineOf b)).countBranch b .lineErrors).line b).errors + 1 }
    split
    · exact attemptFailed_sound b _ (ended.setLineState rfl)
    · exact lineDown_sound ended.endTransmission rfl
  all_goals exact h

theorem windowExpired_sound {s : State} (b : Branch) (h : Sound s) : Sound (s.windowExpired b) := by
  simp only [State.windowExpired]
  split
  · rename_i x w hst
    have settled : Sound ((s.countBranch b .noAnswer).settle b) :=
      setLineState_sound (countBranch_sound _ _ h) (by simp [hst]) rfl
    split
    · exact reportFailure_sound _ _ settled
    · exact settled
  all_goals exact h

theorem applyRate_sound {s : State} {b : Branch} (h : Sound s)
    (hl : LineState.isSending (s.line b).state = false) : Sound (s.applyRate b) := by
  simp only [State.applyRate]
  split
  · exact h
  · obtain ⟨hd, hm⟩ := (h.branch b).quiet hl
    refine h.of_branch (b := b) (by simp) ?_ (by simp) ?_ (.of_quiet ?_ ?_ ?_)
    · intro l hl; simp [hl]
    · intro c hc; simp [hc]
    · by_cases hp : (s.framer (lineOf b)).mode.inProgress = true <;> simp [hp, hm]
    · simpa using hd
    · simpa using hl

theorem enterIdle_sound {s : State} {b : Branch} (h : Sound s)
    (hl : LineState.isSending (s.line b).state = false) : Sound (s.enterIdle b) :=
  look_sound b (applyRate_sound (setLineState_sound h hl rfl) (by simp))

theorem settled_sound {s : State} (b : Branch) (h : Sound s) : Sound (s.settled b) := by
  simp only [State.settled]
  split
  · rename_i n hst; exact enterIdle_sound h (by rw [hst]; rfl)
  all_goals exact h

/-! ### The table's events -/

theorem completeEarly_sound {s : State} (i : SlotId) (x : Result) (h : Sound s) :
    Sound (s.completeEarly i x) := by
  simp only [State.completeEarly]
  split
  · exact h
  · split
    · exact look_sound _ (complete_sound i x h)
    · exact complete_sound i x h

theorem lifetimeExpired_sound {s : State} (i : SlotId) (h : Sound s) :
    Sound (s.lifetimeExpired i) := by
  simp only [State.lifetimeExpired]
  split
  · exact h
  · exact completeEarly_sound _ _ h

theorem waitExpired_sound {s : State} (i : SlotId) (h : Sound s) : Sound (s.waitExpired i) := by
  simp only [State.waitExpired]
  split
  · exact h
  · split
    · exact joinQueue_sound _ _ (setRecord_sound _ _ h)
    · exact joinQueue_sound _ _ (setRecord_sound _ _ h)
    all_goals exact h

theorem holdExpired_sound {s : State} (i : SlotId) (h : Sound s) : Sound (s.holdExpired i) :=
  h.of_same ⟨by simp, by simp, by simp, by simp⟩

theorem lingerExpired_sound {s : State} (i : SlotId) (h : Sound s) : Sound (s.lingerExpired i) :=
  h.of_same ⟨by simp, by simp, by simp, by simp⟩

theorem reseeded_sound {s : State} (h : Sound s) : Sound s.reseeded :=
  h.of_same ⟨by simp, by simp, by simp, by simp⟩

/-! ### Resets -/

theorem sound_of_rest {s : State} (hd : ∀ l, s.driverEnable.get l = false)
    (hf : ∀ l, (s.framer l).mode = .hunt) (ha : s.answer = .empty)
    (hl : ∀ b, LineState.isSending (s.line b).state = false) : Sound s :=
  ⟨⟨by simp [hd, hf], by simp [hf, ha]⟩,
    fun b => .of_quiet (by simp [hf]) (hd _) (hl b)⟩

theorem atReset_framer_mode (a : Octet) (r : RateCode) (l : Line) :
    ((State.atReset a r).framer l).mode = .hunt := by
  simp only [State.atReset, State.framer, get_eq_getElem, Vector.getElem_set]
  split <;> simp [resetFramer]

theorem hardReset_sound (s : State) : Sound s.hardReset :=
  sound_of_rest (fun l => by simp [State.hardReset, State.atReset])
    (atReset_framer_mode s.ownAddress (s.framer 0).rate) rfl
    (fun b => by simp [State.hardReset, State.atReset, State.line, resetLine])

theorem leaveReset_sound {s : State} (a : BitVec 6) (r : BitVec 3) (h : Sound s) :
    Sound (s.leaveReset a r) := by
  simp only [State.leaveReset]
  split
  · exact h
  · exact sound_of_rest (fun l => by simp [State.atReset])
      (atReset_framer_mode (strapAddress a) (strapRate r)) rfl
      (fun b => by simp [State.atReset, State.line, resetLine])

theorem restarted_isSending (ln : BranchLine) : LineState.isSending ln.restarted.state = false := by
  simp only [BranchLine.restarted]; split <;> rfl

theorem restartNow_sound (s : State) : Sound s.restartNow := by
  refine sound_of_rest (fun l => ?_) (fun l => ?_) rfl (fun b => ?_)
  · simp [State.restartNow]
  · simp [State.restartNow, State.framer]
  · simp [State.restartNow, State.line, restarted_isSending]

theorem answerSent_sound {s : State} (h : Sound s) : Sound s.answerSent := by
  simp only [State.answerSent]
  split
  · rename_i a ha
    have hm : (s.framer 0).mode.isTransmitting = true := by
      rw [h.trunk.2, ha]; rfl
    have ended : Sound (({ s with answer := .empty } : State).endTransmission 0) := by
      refine ⟨⟨?_, ?_⟩, fun b => (h.branch b).congr ?_ ?_ ?_⟩
      · simp [endTransmission_driver, hm]
      · simp [hm]
      all_goals simp [endTransmission_driver]
    split
    · exact restartNow_sound _
    · exact ended
  · exact h
  · exact h

/-! ### The trunk port -/

theorem openRecord_sound {s : State} (i : SlotId) (r : Record) (t : Telegram) (h : Sound s)
    (ha : AnswerBuffer.isSending s.answer = false) : Sound (s.openRecord i r t) := by
  refine joinQueue_sound _ _ (h.of_same ⟨by simp, by simp, ?_, ?_⟩)
  · simp [ha]
  · simp [State.line]

theorem judgeRequest_sound {s : State} (d : Fin 64) (e : DirEntry) (t : Telegram) (h : Sound s)
    (ha : s.answer = .empty) : Sound (s.judgeRequest d e t) := by
  have idle : AnswerBuffer.isSending s.answer = false := by rw [ha]; rfl
  obtain ⟨i, -, e'⟩ | ⟨reason, -, e'⟩ | ⟨out, u, i, -, -, -, -, hu, e'⟩ :=
    judgeRequest_cases s d e t
  · rw [e']; exact countTrunk_sound _ (placeAnswer_sound _ h idle)
  · rw [e']; exact countTrunk_sound _ (placeAnswer_sound _ h idle)
  · rw [e']
    obtain ⟨rfl, -⟩ | ⟨-, -, rfl⟩ := supply_cases hu
    · exact openRecord_sound _ _ _ h idle
    · exact openRecord_sound _ _ _ (setRecord_sound _ _ h) idle

theorem collectFor_sound {s : State} (t : Telegram) (h : Sound s) (ha : s.answer = .empty) :
    Sound (s.collectFor t) := by
  have placed : ∀ a, Sound (s.placeAnswer a) := fun a =>
    placeAnswer_sound a h (by rw [ha]; rfl)
  obtain ⟨a, e⟩ | ⟨a, e⟩ | ⟨i, r, x, hold, a, -, -, e⟩ := collectFor_cases s t
  · rw [e]; exact placed a
  · rw [e]; exact countTrunk_sound _ (placed a)
  · rw [e]
    exact (placed a).of_same ⟨by simp, by simp, by simp, by simp [State.line]⟩

theorem relayBroadcast_sound {s : State} (bc : Broadcast) (h : Sound s) :
    Sound (s.relayBroadcast bc) := by
  refine foldl_keeps_pred Sound (fun u b hu => ?_) _ h
  simp only [State.offerBroadcast]
  split
  · exact countBranch_sound _ _ hu
  · exact look_sound b (setLine_sound hu rfl)

theorem writeBranch_sound {s : State} (b : Branch) (c : Settings) (h : Sound s) :
    Sound (s.writeBranch b c) := by
  have taken : Sound (s.takeSettings b c) := setLine_sound h rfl
  simp only [State.writeBranch]
  split
  · simp only [State.enable]
    split
    · rename_i hd
      have hl := not_isSending_of_isDown hd
      exact enterIdle_sound (setLine_sound taken rfl) (by simpa using hl)
    · exact taken
  · simp only [State.disable]
    split
    · exact taken
    · exact lineDown_sound (taken.endTransmission b) rfl

/-- Every management operation keeps the outputs sound, and the answer buffer as it was. -/
theorem effect_sound {s u : State} (h : Sound s) (he : Effect s u) :
    Sound u ∧ u.answer = s.answer := by
  cases he with
  | none => exact ⟨h, rfl⟩
  | retire _ => exact ⟨lookAll_sound (h.of_same (completeAll_same _ _ _)), by simp⟩
  | branch b c _ => exact ⟨writeBranch_sound b c h, by simp⟩
  | cancel i r _ _ => exact ⟨completeEarly_sound _ _ h, by simp⟩
  | _ => refine ⟨h.of_same ⟨?_, ?_, ?_, ?_⟩, ?_⟩ <;> simp [State.line]

theorem manage_sound {s : State} (t : Telegram) (h : Sound s) (ha : s.answer = .empty) :
    Sound (s.manage t) := by
  refine (manage_keeps (fun u => Sound u ∧ AnswerBuffer.isSending u.answer = false) t
    (fun u he => ?_) (fun u a hu => ⟨placeAnswer_sound a hu.1 hu.2, rfl⟩)
    (fun u c hu => ⟨countTrunk_sound c hu.1, hu.2⟩)).1
  obtain ⟨hu, hua⟩ := effect_sound h he
  exact ⟨hu, by rw [hua, ha]; rfl⟩

theorem trunkTake_sound {s : State} (t : Telegram) (h : Sound s) : Sound (s.trunkTake t) := by
  obtain e | e | e | ⟨ha, -, -, -, d, en, -, e⟩ | ⟨ha, -, -, e⟩ | ⟨ha, -, -, e⟩ | ⟨-, -, -, -, e⟩ :=
    trunkTake_cases s t <;> rw [e]
  · exact h
  · exact countTrunk_sound _ h
  · exact countTrunk_sound _ h
  · exact judgeRequest_sound d en t h ha
  · exact manage_sound t h ha
  · exact collectFor_sound t h ha
  · exact relayBroadcast_sound _ h

/-! ### The receivers -/

/-- A receiver changes its state while its framer does not transmit. -/
theorem setMode_sound {s : State} {l : Line} {m : FramerMode} (h : Sound s)
    (hs : (s.framer l).mode.isTransmitting = false) (hm : m.isTransmitting = false) :
    Sound (s.setMode l m) := by
  obtain rfl | ⟨b, rfl⟩ := line_cases l
  · obtain ⟨hd, ha⟩ := h.trunk
    refine ⟨⟨?_, ?_⟩, fun b => (h.branch b).congr rfl (by simp) rfl⟩
    · simp [hd, hs, hm]
    · simp [hm, ← ha, hs]
  · have hb := h.branch b
    refine h.of_branch (b := b) (by simp) (fun l hl => by simp [hl]) rfl (by simp)
      (.of_quiet (by simpa using hm) ?_ (by simpa [hs] using hb.owner.symm))
    simpa [hs] using hb.driver

theorem judgeStructure_sound {s : State} (l : Line) (t : Telegram) (h : Sound s) :
    Sound (s.judgeStructure l t) := by
  simp only [State.judgeStructure, State.handOver]
  split
  · split
    · exact trunkTake_sound t h
    · exact branchTake_sound _ t h
  · exact countRxMalformed_sound l h

theorem judgeTelegram_sound {s : State} {l : Line} (octets : List Octet) (crc : Word) (h : Sound s)
    (hs : (s.framer l).mode.isTransmitting = false) : Sound (s.judgeTelegram l octets crc) := by
  have hunt : Sound (s.setMode l .hunt) := setMode_sound h hs rfl
  simp only [State.judgeTelegram]
  split
  · exact countRxCheck_sound l hunt
  · split
    · exact judgeStructure_sound l _ hunt
    · exact countRxMalformed_sound l hunt

theorem assemble_sound {s : State} {l : Line} (o : Octet) (h : Sound s)
    (hs : (s.framer l).mode.isTransmitting = false) : Sound (s.assemble l o) := by
  simp only [State.assemble]
  split
  · split
    · exact setMode_sound h hs rfl
    · exact h
  · split
    · exact setMode_sound h hs rfl
    · exact countRxMalformed_sound l (setMode_sound h hs rfl)
  · split
    · exact judgeTelegram_sound _ _ h hs
    · exact setMode_sound h hs rfl
  · exact h

/-- A matched echo before the last: DE is still high, as at least two echoes were expected. -/
theorem echoMatched_sound {s : State} {b : Branch} {octets : List Octet} {e second : Octet}
    {rest : List Octet} (h : Sound s)
    (hm : (s.framer (lineOf b)).mode = .transmitting octets (e :: second :: rest)) :
    Sound (s.setMode (lineOf b) (.transmitting octets (second :: rest))) := by
  have hb := h.branch b
  refine h.of_branch (b := b) (by simp) (fun l hl => by simp [hl]) rfl (by simp)
    (.of_high (by simp) (hb.echoes _ _ _ _ hm) ?_)
  simpa [hm] using hb.owner.symm

theorem compareEcho_sound {s : State} {b : Branch} {octets echoes : List Octet} (o : Octet)
    (stop : Bool) (h : Sound s) (hm : (s.framer (lineOf b)).mode = .transmitting octets echoes) :
    Sound (s.compareEcho b octets echoes o stop) := by
  simp only [State.compareEcho]
  split
  · exact echoFault_sound b h
  · split
    · split
      · exact transmissionDone_sound b h
      · exact echoMatched_sound h hm
    · exact echoFault_sound b h

theorem receiveOctet_sound {s : State} (l : Line) (o : Octet) (stop : Bool) (h : Sound s) :
    Sound (s.receiveOctet l o stop) := by
  have heard : (s.framer l).mode.isTransmitting = false →
      Sound ((s.restartTurnaround l).assemble l o) := fun hm =>
    assemble_sound o (restartTurnaround_sound l h) (by simpa using hm)
  simp only [State.receiveOctet]
  split
  · rename_i octets echoes hm
    obtain rfl | ⟨b, rfl⟩ := line_cases l
    · exact h
    · simpa using compareEcho_sound o stop h hm
  all_goals
    rename_i hm
    exact heard (by rw [hm]; rfl)

theorem receiveTelegram_sound {s : State} (l : Line) (t : Telegram) (h : Sound s) :
    Sound (s.receiveTelegram l t) := by
  simp only [State.receiveTelegram]
  split
  · exact h
  · rename_i hm
    exact judgeStructure_sound l t
      (setMode_sound (restartTurnaround_sound l h) (by simpa using hm) rfl)

theorem gapExpired_sound {s : State} (l : Line) (h : Sound s) : Sound (s.gapExpired l) := by
  simp only [State.gapExpired]
  split
  · rename_i hm
    exact countRxTorn_sound l (setMode_sound h (not_isTransmitting_of_inProgress hm) rfl)
  · exact h

/-! ### Every step -/

theorem resetAssert_sound {s t : State} (cause : ResetCause) (h : Sound s)
    (he : exec (.resetAssert cause) s = .next t) : Sound t := by
  obtain rfl := Host.Outcome.next.inj he
  cases cause with
  | supplyLow => exact hardReset_sound _
  | pinLow n =>
    have chosen : Sound { s with freeChoices := s.freeChoices + 1 } :=
      h.of_same ⟨rfl, rfl, rfl, fun _ => rfl⟩
    dsimp only
    split
    · exact h
    · split
      · exact hardReset_sound _
      · split
        · exact hardReset_sound _
        · exact chosen

/-- Every command keeps the outputs sound. `KeptByEvents` does not give this, since its echo event
lets the echoes still expected be any list, and the invariant counts them. -/
theorem exec_sound (c : Instr) {s t : State} (h : Sound s) (he : exec c s = .next t) : Sound t := by
  have run : ∀ {f : State → State} {u : State}, Sound (f s) →
      Host.Outcome.next (φ := Fault) (ρ := Refusal) (s.whenRunning f) = .next u → Sound u := by
    intro f u hf hu
    obtain rfl := Host.Outcome.next.inj hu
    exact whenRunning_keeps h hf
  cases c with
  | resetAssert cause => exact resetAssert_sound cause h he
  | resetRelease a r =>
    obtain rfl := Host.Outcome.next.inj he
    split
    · exact leaveReset_sound a r (h.of_same ⟨rfl, rfl, rfl, fun _ => rfl⟩)
    · exact h
  | powerOnRelease a r =>
    obtain rfl := Host.Outcome.next.inj he
    split
    · exact leaveReset_sound a r (h.of_same ⟨rfl, rfl, rfl, fun _ => rfl⟩)
    · exact h
  | badLength l o => exact run (receiveOctet_sound l o true h) he
  | receptionCompletion l o => exact run (receiveOctet_sound l o true h) he
  | octetReceived l o stop => exact run (receiveOctet_sound l o stop h) he
  | gapTimerExpiry l => exact run (gapExpired_sound l h) he
  | turnaroundExpiry => exact run (sendAnswer_sound h) he
  | trunkTransmitCompletion => exact run (answerSent_sound h) he
  | branchTransmitCompletion b => exact run (transmissionDone_sound b h) he
  | echoMismatch b cause => exact run (echoFault_sound b h) he
  | answerWindowExpiry b => exact run (windowExpired_sound b h) he
  | branchTelegram b x => exact run (receiveTelegram_sound (lineOf b) x h) he
  | settleExpiry b => exact run (settled_sound b h) he
  | lifetimeExpiry i => exact run (lifetimeExpired_sound i h) he
  | waitExpiry i => exact run (waitExpired_sound i h) he
  | holdExpiry i => exact run (holdExpired_sound i h) he
  | lingerExpiry i => exact run (lingerExpired_sound i h) he
  | reseedCompletion => exact run (reseeded_sound h) he
  | _ => exact run (receiveTelegram_sound 0 _ h) he

/-- The end of a last stop bit lowers a DE whose framer has only the last echo still to come. -/
theorem endStopBits_sound {s : State} (h : Sound s) : Sound s.endStopBits := by
  have hf : ∀ l, s.endStopBits.framer l = s.framer l := fun l => by simp [State.framer]
  refine ⟨by simpa [TrunkSound, hf] using h.trunk, fun b => ⟨?_, ?_, ?_⟩⟩
  · simpa [hf, State.line] using (h.branch b).owner
  · intro hd
    rw [hf]
    exact (h.branch b).driver (by simp_all)
  · intro octets first second rest hm
    rw [hf] at hm
    have hd := (h.branch b).echoes _ _ _ _ hm
    simp [hd, State.stopBitToCome, hm]

theorem step_sound {s t : State} (h : Sound s) (he : step s = .next t) : Sound t := by
  simp only [step] at he
  split at he
  · obtain rfl := Host.Outcome.next.inj he
    exact whenRunning_keeps h (endStopBits_sound h)
  · have taken : ∀ q, Sound { s with pending := q } := fun q =>
      h.of_same ⟨rfl, rfl, rfl, fun _ => rfl⟩
    exact exec_sound _ (whenRunning_keeps (taken _) (endStopBits_sound (taken _))) he

end Sys2Proof.Transmissions

namespace Sys2Proof.Transmissions

open Sys2Proof.Machine Sys2Proof.Safety Sys2Proof.Laws

/-! ### A pending restart keeps its answer -/

theorem restartHasAnswer_of_none {s : State} (h : s.pendingRestart = false) :
    RestartHasAnswer s := by simp [RestartHasAnswer, h]

theorem restartHasAnswer_of_same {s t : State} (hs : RestartHasAnswer s)
    (hp : t.pendingRestart = s.pendingRestart) (ha : t.answer = s.answer) : RestartHasAnswer t := by
  simpa only [RestartHasAnswer, hp, ha] using hs

/-- With the buffer EMPTY no restart is pending. -/
theorem pendingRestart_of_empty {s : State} (hs : RestartHasAnswer s)
    (ha : s.answer = .empty) : s.pendingRestart = false := by
  by_contra hp
  obtain ⟨a, h | ⟨n, h⟩, -⟩ := hs (by simpa using hp) <;> simp [ha] at h

theorem withFields_pendingRestart {s : State} {checks : List (Octet × Bool)} {run : Reply × State}
    (h : run.2.pendingRestart = s.pendingRestart) :
    (withFields s checks run).2.pendingRestart = s.pendingRestart := by
  obtain ⟨-, hw⟩ | ⟨_, _, _, -, -, hw⟩ := withFields_cases s checks run
  · rw [hw]; exact h
  · rw [hw]; rfl

theorem withEmptyBody_pendingRestart {s : State} {body : List Octet} {run : Reply × State}
    (h : run.2.pendingRestart = s.pendingRestart) :
    (withEmptyBody s body run).2.pendingRestart = s.pendingRestart := by
  obtain ⟨-, hw⟩ | ⟨-, hw⟩ := withEmptyBody_cases s body run
  · rw [hw]; exact h
  · rw [hw]; rfl

theorem stagedWrite_pendingRestart (s : State) (edit : Bank → Bank) :
    (stagedWrite s edit).2.pendingRestart = s.pendingRestart := by
  obtain ⟨-, hw⟩ | ⟨-, hw⟩ := stagedWrite_cases s edit <;> rw [hw] <;> simp

/-! What each operation but RESTART does to a pending restart: nothing. -/

@[simp] theorem opIdentify_pendingRestart (s : State) (body : List Octet) :
    (opIdentify s body).2.pendingRestart = s.pendingRestart := withEmptyBody_pendingRestart rfl

@[simp] theorem opReadSlot_pendingRestart (s : State) (body : List Octet) :
    (opReadSlot s body).2.pendingRestart = s.pendingRestart := by
  unfold opReadSlot; split
  · exact withFields_pendingRestart (by simp)
  · rfl

@[simp] theorem opWriteSlot_pendingRestart (s : State) (body : List Octet) :
    (opWriteSlot s body).2.pendingRestart = s.pendingRestart := by
  unfold opWriteSlot; split
  · exact withFields_pendingRestart (stagedWrite_pendingRestart _ _)
  · rfl

@[simp] theorem opClearSlot_pendingRestart (s : State) (body : List Octet) :
    (opClearSlot s body).2.pendingRestart = s.pendingRestart := by
  unfold opClearSlot; split
  · exact withFields_pendingRestart (stagedWrite_pendingRestart _ _)
  · rfl

@[simp] theorem opReadProfile_pendingRestart (s : State) (body : List Octet) :
    (opReadProfile s body).2.pendingRestart = s.pendingRestart := by
  unfold opReadProfile; split
  · exact withFields_pendingRestart (by simp)
  · rfl

@[simp] theorem opWriteProfile_pendingRestart (s : State) (body : List Octet) :
    (opWriteProfile s body).2.pendingRestart = s.pendingRestart := by
  unfold opWriteProfile; split
  · refine withFields_pendingRestart ?_
    split
    · rfl
    · exact stagedWrite_pendingRestart _ _
  · refine withFields_pendingRestart ?_
    split
    · rfl
    · split
      · exact stagedWrite_pendingRestart _ _
      · exact withFields_pendingRestart (stagedWrite_pendingRestart _ _)
  · rfl

@[simp] theorem opCommit_pendingRestart (s : State) (body : List Octet) :
    (opCommit s body).2.pendingRestart = s.pendingRestart := by
  unfold opCommit; (repeat' split) <;> simp

@[simp] theorem opRetire_pendingRestart (s : State) (body : List Octet) :
    (opRetire s body).2.pendingRestart = s.pendingRestart := by
  refine withEmptyBody_pendingRestart ?_
  split <;> simp

@[simp] theorem opReadLine_pendingRestart (s : State) (body : List Octet) :
    (opReadLine s body).2.pendingRestart = s.pendingRestart := by
  unfold opReadLine; split
  · refine withFields_pendingRestart ?_
    split <;> rfl
  · rfl

@[simp] theorem opWriteLine_pendingRestart (s : State) (body : List Octet) :
    (opWriteLine s body).2.pendingRestart = s.pendingRestart := by
  unfold opWriteLine; split
  · refine withFields_pendingRestart ?_
    split
    · rfl
    · exact withFields_pendingRestart rfl
  · refine withFields_pendingRestart ?_
    split
    · rfl
    · exact withFields_pendingRestart (by simp)
  · rfl

@[simp] theorem opReadRecords_pendingRestart (s : State) (body : List Octet) :
    (opReadRecords s body).2.pendingRestart = s.pendingRestart := withEmptyBody_pendingRestart rfl

@[simp] theorem opCancel_pendingRestart (s : State) (source : Octet) (body : List Octet) :
    (opCancel s source body).2.pendingRestart = s.pendingRestart := by
  unfold opCancel; (repeat' split) <;> simp

@[simp] theorem opReadCounters_pendingRestart (s : State) (body : List Octet) :
    (opReadCounters s body).2.pendingRestart = s.pendingRestart := by
  unfold opReadCounters; split
  · refine withFields_pendingRestart ?_
    dsimp only
    split <;> simp
  · rfl

/-- RESTART answers ANS with an empty Body, or changes nothing (R148, R161). -/
theorem opRestart_cases (s : State) (body : List Octet) :
    (opRestart s body).1 = .ans [] ∨ (opRestart s body).2 = s := by
  rw [opRestart]
  obtain ⟨-, h⟩ | ⟨-, h⟩ := withEmptyBody_cases s body (.ans [], { s with pendingRestart := true })
  · exact .inl (by rw [h])
  · exact .inr (by rw [h]; rfl)

/-- Of the fourteen operations only RESTART leaves a restart pending, and it answers ANS with an
empty Body (R161). -/
theorem operate_pendingRestart (s : State) (t : Telegram) :
    (operate s t).2.pendingRestart = s.pendingRestart ∨
      (t.code = 0x8D ∧ (operate s t).1 = .ans []) := by
  rw [operate]
  split
  case h_14 hc =>
    obtain h | h := opRestart_cases s t.body
    · exact .inr ⟨BitVec.eq_of_toNat_eq hc, h⟩
    · exact .inl (by rw [h])
  all_goals exact .inl (by simp)

theorem manage_restartHasAnswer {s : State} (t : Telegram) (hs : s.pendingRestart = false) :
    RestartHasAnswer (s.manage t) := by
  obtain h | ⟨hc, h⟩ := operate_pendingRestart s t
  · exact restartHasAnswer_of_none (by simp [State.manage, h, hs])
  · intro _
    exact ⟨answerTo t (operate s t).2.ownAddress .ans t.code [],
      .inr ⟨2, by simp [State.manage, h, State.answerReply]⟩, rfl, hc, rfl⟩

theorem trunkTake_restartHasAnswer {s : State} (t : Telegram) (hs : RestartHasAnswer s) :
    RestartHasAnswer (s.trunkTake t) := by
  obtain e | e | e | ⟨ha, -, -, -, d, en, -, e⟩ | ⟨ha, -, -, e⟩ | ⟨ha, -, -, e⟩ | ⟨-, -, -, -, e⟩ :=
    trunkTake_cases s t <;> rw [e]
  · exact hs
  · exact restartHasAnswer_of_same hs rfl rfl
  · exact restartHasAnswer_of_same hs rfl rfl
  · exact restartHasAnswer_of_none (by simp [pendingRestart_of_empty hs ha])
  · exact manage_restartHasAnswer t (pendingRestart_of_empty hs ha)
  · exact restartHasAnswer_of_none (by simp [pendingRestart_of_empty hs ha])
  · exact restartHasAnswer_of_same hs (by simp) (by simp)

theorem restartTurnaround_restartHasAnswer {s : State} (l : Line) (hs : RestartHasAnswer s) :
    RestartHasAnswer (s.restartTurnaround l) := by
  simp only [State.restartTurnaround]
  split
  · split
    · rename_i a n ha
      intro hp
      obtain ⟨a', h | ⟨m, h⟩, hk⟩ := hs hp
      · rw [ha] at h; cases h
      · rw [ha] at h; cases h
        exact ⟨a, .inr ⟨2, rfl⟩, hk⟩
    · exact hs
    · exact hs
  · exact hs

theorem sendAnswer_restartHasAnswer {s : State} (hs : RestartHasAnswer s) :
    RestartHasAnswer s.sendAnswer := by
  simp only [State.sendAnswer]
  split
  · rename_i a n ha
    intro hp
    obtain ⟨a', h | ⟨m, h⟩, hk⟩ := hs (by simpa using hp)
    · rw [ha] at h; cases h
    · rw [ha] at h; cases h
      exact ⟨a, .inl (by simp), hk⟩
  · exact hs
  · exact hs

/-- The restart happens when its answer has been sent, and is pending no more. -/
theorem answerSent_restartHasAnswer {s : State} (hs : RestartHasAnswer s) :
    RestartHasAnswer s.answerSent := by
  simp only [State.answerSent]
  split
  · split
    · exact restartHasAnswer_of_none rfl
    · rename_i hp; exact restartHasAnswer_of_none (by simpa using hp)
  · exact hs
  · exact hs

theorem leaveReset_restartHasAnswer {s : State} (a : BitVec 6) (r : BitVec 3)
    (hs : RestartHasAnswer s) : RestartHasAnswer (s.leaveReset a r) := by
  simp only [State.leaveReset]
  split
  · exact hs
  · exact restartHasAnswer_of_none rfl

theorem restartHasAnswer_keptByEvents : KeptByEvents RestartHasAnswer where
  choice := fun _ _ h => restartHasAnswer_of_same h rfl rfl
  pin := fun _ _ => restartHasAnswer_of_none rfl
  supply := fun _ _ => restartHasAnswer_of_none rfl
  pinRelease := fun _ a r h => leaveReset_restartHasAnswer a r
    (restartHasAnswer_of_same h rfl rfl)
  supplyRelease := fun _ a r h => leaveReset_restartHasAnswer a r
    (restartHasAnswer_of_same h rfl rfl)
  turnaround := fun _ l h => restartTurnaround_restartHasAnswer l h
  receive := fun _ _ _ h _ _ => restartHasAnswer_of_same h rfl rfl
  check := fun _ _ h => restartHasAnswer_of_same h (by simp) (by simp)
  torn := fun _ _ h => restartHasAnswer_of_same h (by simp) (by simp)
  malformed := fun _ _ h => restartHasAnswer_of_same h (by simp) (by simp)
  echo := fun _ _ _ _ _ h _ => restartHasAnswer_of_same h rfl rfl
  trunk := fun _ t h _ _ => trunkTake_restartHasAnswer t h
  branch := fun _ _ _ h _ _ => restartHasAnswer_of_same h (by simp) (by simp)
  send := fun _ h => sendAnswer_restartHasAnswer h
  sent := fun _ h => answerSent_restartHasAnswer h
  done := fun _ _ h => restartHasAnswer_of_same h (by simp) (by simp)
  mismatch := fun _ _ h => restartHasAnswer_of_same h (by simp) (by simp)
  window := fun _ _ h => restartHasAnswer_of_same h (by simp) (by simp)
  settled := fun _ _ h => restartHasAnswer_of_same h (by simp) (by simp)
  lifetime := fun _ _ h => restartHasAnswer_of_same h (by simp) (by simp)
  wait := fun _ _ h => restartHasAnswer_of_same h (by simp) (by simp)
  hold := fun _ _ h => restartHasAnswer_of_same h (by simp) (by simp)
  linger := fun _ _ h => restartHasAnswer_of_same h (by simp) (by simp)
  reseed := fun _ h => restartHasAnswer_of_same h (by simp) (by simp)

theorem step_restartHasAnswer {s t : State} (hs : RestartHasAnswer s) (h : step s = .next t) :
    RestartHasAnswer t :=
  step_keeps restartHasAnswer_keptByEvents (fun _ _ h => restartHasAnswer_of_same h rfl rfl)
    (fun _ h => restartHasAnswer_of_same h (by simp) (by simp)) hs h

/-! ### The output TXD -/

/-- The bits of an octet in their order on the line, written out (R1). -/
theorem octetBits_eq (o : Octet) : octetBits o =
    [false, o.getLsbD 0, o.getLsbD 1, o.getLsbD 2, o.getLsbD 3, o.getLsbD 4, o.getLsbD 5,
      o.getLsbD 6, o.getLsbD 7, true] := rfl

/-! ### The statement -/

/-- Settles O49: the invariant is kept line by line, in every operation (`step_sound`), and the
answer buffer holds the pending restart's answer until the restart. -/
theorem driversFollowTheirOwners : Obligations.DriversFollowTheirOwners := by
  refine ⟨fun s t hs he => (sound_iff t).mp (step_sound ((sound_iff s).mpr hs) he), fun s l => ?_,
    fun s t => step_restartHasAnswer⟩
  refine ⟨txd_of_low, fun hd octets echoes hm => ?_⟩
  rw [txd_of_transmitting hd hm]
  exact congrArg (fun f => TxdOutput.follows (octets.flatMap f)) (funext octetBits_eq)

end Sys2Proof.Transmissions

/-! SUPPORT. The receivers and the echo comparison: what one octet does in each state of a receiver
(R10 to R14), a run of octets, and the echoes of a branch transmission (R15, R18). -/

namespace Sys2Proof.Receptions

open Sys2Proof.Machine Sys2Proof.Safety Sys2Proof.Laws Sys2Proof.Transmissions

@[simp] theorem setMode_mode (s : State) (l : Line) (m : FramerMode) :
    ((s.setMode l m).framer l).mode = m := by simp

/-! ### One octet -/

theorem exec_octetReceived {s : State} (hr : s.inReset = false) (l : Line) (o : Octet)
    (stop : Bool) : exec (.octetReceived l o stop) s = .next (s.receiveOctet l o stop) :=
  congrArg _ (whenRunning_of_running hr _)

/-- BAD_LENGTH and RECEPTION_COMPLETION are the arrival of an octet with the stop bit 1. -/
theorem exec_badLength (l : Line) (o : Octet) (s : State) :
    exec (.badLength l o) s = exec (.octetReceived l o true) s := rfl

theorem exec_receptionCompletion (l : Line) (o : Octet) (s : State) :
    exec (.receptionCompletion l o) s = exec (.octetReceived l o true) s := rfl

/-- While the framer does not transmit, the receiver takes the octet, and on the trunk it restarts a
running turnaround timer (R10, R138). -/
theorem exec_octet_heard {s : State} {l : Line} (hr : s.inReset = false)
    (hm : (s.framer l).mode.isTransmitting = false) (o : Octet) (stop : Bool) :
    exec (.octetReceived l o stop) s = .next ((s.restartTurnaround l).assemble l o) := by
  rw [exec_octetReceived hr]
  simp only [State.receiveOctet]
  split
  · rename_i h; simp [h] at hm
  all_goals rfl

theorem assemble_hunt {s : State} {l : Line} (hm : (s.framer l).mode = .hunt) (o : Octet) :
    s.assemble l o = if o = leadOctet then s.setMode l (.length crcPreset 3) else s := by
  simp only [State.assemble, hm]

theorem assemble_length {s : State} {l : Line} {crc : Word} {gap : Nat}
    (hm : (s.framer l).mode = .length crc gap) (o : Octet) :
    s.assemble l o =
      if within 5 53 o.toNat then s.setMode l (.body [o] (o.toNat + 2) (crcOctet crc o) 3)
      else (s.setMode l .hunt).countRxMalformed l := by
  simp only [State.assemble, hm]

theorem assemble_body {s : State} {l : Line} {octets : List Octet} {toCome gap : Nat} {crc : Word}
    (hm : (s.framer l).mode = .body octets toCome crc gap) (o : Octet) :
    s.assemble l o =
      if toCome ≤ 1 then s.judgeTelegram l (octets ++ [o]) (crcOctet crc o)
      else s.setMode l (.body (octets ++ [o]) (toCome - 1) (crcOctet crc o) 3) := by
  simp only [State.assemble, hm]

theorem within_iff (low high n : Nat) : within low high n = true ↔ low ≤ n ∧ n ≤ high := by
  simp [within]

/-- Settles O6, by the state of the receiver. -/
theorem receiverTakesLeadAndLength : Obligations.ReceiverTakesLeadAndLength := by
  intro s l o stop hr u
  refine ⟨fun hm => ?_, fun crc gap hm => ?_⟩
  · have step : exec (.octetReceived l o stop) s = .next (u.assemble l o) :=
      exec_octet_heard hr (by rw [hm]; rfl) o stop
    rw [step, assemble_hunt (by simpa [u] using hm)]
    exact ⟨fun ho => congrArg _ (if_pos ho), fun ho => congrArg _ (if_neg ho)⟩
  · have step : ∀ stop, exec (.octetReceived l o stop) s = .next (u.assemble l o) :=
      exec_octet_heard hr (by rw [hm]; rfl) o
    have taken := assemble_length (s := u) (by simpa [u] using hm) o
    refine ⟨fun h5 h53 => ?_, fun ho => ?_⟩
    · rw [step, taken, if_pos ((within_iff _ _ _).mpr ⟨h5, h53⟩)]
    · have bad : ¬ within 5 53 o.toNat = true := by rw [within_iff]; omega
      rw [exec_badLength, step, step, taken, if_neg bad]
      exact ⟨rfl, rfl⟩

/-! ### The end of a telegram -/

theorem judgeTelegram_bad {s : State} {l : Line} {octets : List Octet} {crc : Word} (h : crc ≠ 0) :
    s.judgeTelegram l octets crc = (s.setMode l .hunt).countRxCheck l := by
  simp only [State.judgeTelegram, if_pos h]

theorem judgeTelegram_unread {s : State} {l : Line} {octets : List Octet}
    (h : readTelegram octets = none) :
    s.judgeTelegram l octets 0 = (s.setMode l .hunt).countRxMalformed l := by
  simp [State.judgeTelegram, h]

theorem judgeTelegram_read {s : State} {l : Line} {octets : List Octet} {t : Telegram}
    (h : readTelegram octets = some t) :
    s.judgeTelegram l octets 0 = (s.setMode l .hunt).judgeStructure l t := by
  simp [State.judgeTelegram, h]

theorem judgeStructure_invalid {s : State} {l : Line} {t : Telegram}
    (h : telegramValid t = false) : s.judgeStructure l t = s.countRxMalformed l := by
  simp [State.judgeStructure, h]

theorem judgeStructure_zero {s : State} {t : Telegram} (h : telegramValid t = true) :
    s.judgeStructure 0 t = s.trunkTake t := by
  simp [State.judgeStructure, h, State.handOver]

theorem judgeStructure_lineOf {s : State} {b : Branch} {t : Telegram}
    (h : telegramValid t = true) : s.judgeStructure (lineOf b) t = s.branchTake b t := by
  simp [State.judgeStructure, h, State.handOver]

theorem exec_gapTimerExpiry {s : State} (hr : s.inReset = false) (l : Line) :
    exec (.gapTimerExpiry l) s = .next (s.gapExpired l) :=
  congrArg _ (whenRunning_of_running hr _)

theorem gapExpired_inProgress {s : State} {l : Line} (h : (s.framer l).mode.inProgress = true) :
    s.gapExpired l = (s.setMode l .hunt).countRxTorn l := if_pos h

theorem gapExpired_idle {s : State} {l : Line} (h : (s.framer l).mode.inProgress = false) :
    s.gapExpired l = s := if_neg (by simp [h])

/-- Settles O7: the gap timer by the receiver's state, the octet by its place in the telegram. -/
theorem telegramsJudgedOrTorn : Obligations.TelegramsJudgedOrTorn := by
  refine ⟨fun s l hr => ?_, ?_⟩
  · rw [exec_gapTimerExpiry hr]
    refine ⟨fun crc gap hm => ?_, fun octets toCome crc gap hm => ?_, fun hm => ?_⟩
    · rw [gapExpired_inProgress (by rw [hm]; rfl)]
    · rw [gapExpired_inProgress (by rw [hm]; rfl)]
    · refine congrArg _ (gapExpired_idle ?_)
      obtain hm | hm := hm
      · rw [hm]; rfl
      · by_contra hp
        rw [not_isTransmitting_of_inProgress (by simpa using hp)] at hm
        simp at hm
  · intro s l octets toCome gap crc o hr hm u
    have step : ∀ stop, exec (.octetReceived l o stop) s =
        .next ((s.restartTurnaround l).assemble l o) :=
      exec_octet_heard hr (by rw [hm]; rfl) o
    have taken := assemble_body (s := s.restartTurnaround l) (by simpa using hm) o
    have last : toCome = 1 → exec (.receptionCompletion l o) s =
        .next ((s.restartTurnaround l).judgeTelegram l (octets ++ [o]) (crcOctet crc o)) := by
      intro h1
      rw [exec_receptionCompletion, step, taken, if_pos (by omega)]
    refine ⟨fun hmore stop => ?_, fun h1 hc => ?_, fun h1 hc ht => ?_, fun h1 hc t ht => ?_⟩
    · rw [step, taken, if_neg (by omega)]
    · rw [last h1, judgeTelegram_bad hc]
    · rw [last h1, hc, judgeTelegram_unread ht]
    · rw [last h1, hc, judgeTelegram_read ht]
      refine ⟨fun hv => by rw [judgeStructure_invalid hv], fun hv => ⟨?_, ?_⟩⟩
      · rintro rfl; rw [judgeStructure_zero hv]
      · rintro b rfl; rw [judgeStructure_lineOf hv]

/-! ### A run of octets -/

theorem receiveAll_cons {l : Line} {o : Octet} {rest : List Octet} {s t : State}
    (h : exec (.octetReceived l o true) s = .next t) :
    receiveAll l (o :: rest) s = receiveAll l rest t := by
  simp only [receiveAll, h]

theorem receiveAll_of_reset {s : State} (hr : s.inReset = true) (l : Line) (octets : List Octet) :
    receiveAll l octets s = .next s := by
  induction octets with
  | nil => rfl
  | cons o rest ih =>
    have ignored : exec (.octetReceived l o true) s = .next s :=
      congrArg _ (whenRunning_of_reset hr _)
    rw [receiveAll_cons ignored, ih]

@[simp] theorem restartTurnaround_restartTurnaround (s : State) (l : Line) :
    (s.restartTurnaround l).restartTurnaround l = s.restartTurnaround l := by
  by_cases hl : l = 0
  · cases ha : s.answer <;> simp [State.restartTurnaround, hl, ha]
  · simp [State.restartTurnaround, hl]

@[simp] theorem restartTurnaround_setMode (s : State) (l l' : Line) (m : FramerMode) :
    (s.setMode l' m).restartTurnaround l = (s.restartTurnaround l).setMode l' m := by
  by_cases hl : l = 0
  · cases ha : s.answer with
    | turnaround a n => simp [State.restartTurnaround, hl, ha]; rfl
    | empty => simp [State.restartTurnaround, hl, ha]
    | sending a => simp [State.restartTurnaround, hl, ha]
  · simp [State.restartTurnaround, hl]

@[simp] theorem judgeTelegram_setMode (s : State) (l : Line) (m : FramerMode)
    (octets : List Octet) (crc : Word) :
    (s.setMode l m).judgeTelegram l octets crc = s.judgeTelegram l octets crc := by
  simp [State.judgeTelegram]

/-- The Body and the Check, received octet by octet: the last has the telegram judged (R11). -/
theorem receiveAll_body {u : State} {l : Line} (hr : u.inReset = false)
    (hu : u.restartTurnaround l = u) (rest octets : List Octet) (crc : Word) (hne : rest ≠ []) :
    receiveAll l rest (u.setMode l (.body octets rest.length crc 3)) =
      .next (u.judgeTelegram l (octets ++ rest) (crcOver crc rest)) := by
  induction rest generalizing octets crc with
  | nil => exact absurd rfl hne
  | cons o rest ih =>
    have heard : exec (.octetReceived l o true)
          (u.setMode l (.body octets (o :: rest).length crc 3)) =
        .next ((u.setMode l (.body octets (o :: rest).length crc 3)).assemble l o) := by
      rw [exec_octet_heard (by simpa using hr) (by rw [setMode_mode]; rfl),
        restartTurnaround_setMode, hu]
    rw [receiveAll_cons heard, assemble_body (setMode_mode _ _ _)]
    cases rest with
    | nil => simp [receiveAll, crcOver]
    | cons p rest =>
      have hmore : ¬ (o :: p :: rest).length ≤ 1 := by simp
      rw [if_neg hmore, setMode_setMode]
      simpa [crcOver] using ih (octets ++ [o]) (crcOctet crc o) (by simp)

/-! ### A whole telegram -/

theorem length_of_kindPermits {k : Kind} {n : Nat} (h : kindPermits k n = true) : n ≤ 48 := by
  cases k <;> simp [kindPermits] at h <;> omega

theorem body_length_of_valid {t : Telegram} (h : telegramValid t = true) : t.body.length ≤ 48 := by
  simp only [telegramValid, Bool.and_eq_true] at h
  exact length_of_kindPermits h.2

/-- The octets after the Length: the five fields, the Body and the Check (R4). -/
def afterLength (t : Telegram) : List Octet :=
  t.dest :: t.source :: kindOctet t.kind :: t.seq :: t.code ::
    (t.body ++ wordOctets (crcOver crcPreset (coveredOctets t)))

theorem telegramOctets_eq (t : Telegram) :
    telegramOctets t = leadOctet :: octetOf (5 + t.body.length) :: afterLength t := rfl

theorem afterLength_length (t : Telegram) : (afterLength t).length = 5 + t.body.length + 2 := by
  simp [afterLength, wordOctets]; omega

/-- The check of a telegram as sent is good (R9). -/
theorem crcOver_afterLength (t : Telegram) :
    crcOver (crcOctet crcPreset (octetOf (5 + t.body.length))) (afterLength t) = 0 := by
  have h := crcOver_own_check crcPreset (coveredOctets t)
  rwa [coveredOctets, List.cons_append, crcOver, List.foldl_cons] at h

/-- The fields of a telegram as sent are read back (R4). -/
theorem readTelegram_sent (t : Telegram) (n : Octet) :
    readTelegram ([n] ++ afterLength t) = some t := by
  simp [readTelegram, afterLength, wordOctets]

/-- The octets sent for a valid telegram, heard from HUNT, are that telegram (R4 to R14). -/
theorem receiveAll_telegram {s : State} {l : Line} {t : Telegram} (hr : s.inReset = false)
    (hm : (s.framer l).mode = .hunt) (hv : telegramValid t = true) :
    receiveAll l (telegramOctets t) s = .next (s.receiveTelegram l t) := by
  have hlen : (octetOf (5 + t.body.length)).toNat = 5 + t.body.length :=
    octetOf_toNat (by have := body_length_of_valid hv; omega)
  have hin : within 5 53 (octetOf (5 + t.body.length)).toNat = true := by
    rw [within_iff, hlen]; have := body_length_of_valid hv; omega
  have lead : exec (.octetReceived l leadOctet true) s =
      .next ((s.restartTurnaround l).setMode l (.length crcPreset 3)) := by
    rw [exec_octet_heard hr (by rw [hm]; rfl), assemble_hunt (by simpa using hm), if_pos rfl]
  have length : exec (.octetReceived l (octetOf (5 + t.body.length)) true)
        ((s.restartTurnaround l).setMode l (.length crcPreset 3)) =
      .next ((s.restartTurnaround l).setMode l
        (.body [octetOf (5 + t.body.length)] (afterLength t).length
          (crcOctet crcPreset (octetOf (5 + t.body.length))) 3)) := by
    rw [exec_octet_heard (by simpa using hr) (by rw [setMode_mode]; rfl),
      restartTurnaround_setMode, restartTurnaround_restartTurnaround,
      assemble_length (setMode_mode _ _ _), if_pos hin, setMode_setMode, hlen, afterLength_length]
  rw [telegramOctets_eq, receiveAll_cons lead, receiveAll_cons length,
    receiveAll_body (by simpa using hr) (by simp) _ _ _ (by simp [afterLength]),
    crcOver_afterLength, judgeTelegram_read (readTelegram_sent t _)]
  simp [State.receiveTelegram, hm]

/-- Settles O8: on each line the octets do what the telegram's command does (`receiveAll_telegram`),
and in hard reset neither does anything. -/
theorem octetsMakeTheTelegram : Obligations.OctetsMakeTheTelegram := by
  intro s t hv
  have same : ∀ l, (s.framer l).mode = .hunt →
      receiveAll l (telegramOctets t) s = .next (s.whenRunning fun s => s.receiveTelegram l t) := by
    intro l hm
    cases hr : s.inReset with
    | true => rw [receiveAll_of_reset hr, whenRunning_of_reset hr]
    | false => rw [receiveAll_telegram hr hm hv, whenRunning_of_running hr]
  exact ⟨same 0, fun b => same (lineOf b)⟩

/-! ### Echoes -/

theorem endTransmission_setMode {s : State} {l : Line} {octets echoes : List Octet}
    (hs : (s.framer l).mode.isTransmitting = true) :
    (s.setMode l (.transmitting octets echoes)).endTransmission l = s.endTransmission l := by
  simp [State.endTransmission, hs]

/-- How far the echoes have been compared does not matter to the transmit completion. -/
theorem transmissionDone_setMode {s : State} {b : Branch} {octets echoes : List Octet} {a : Attempt}
    (hs : (s.framer (lineOf b)).mode.isTransmitting = true) (ha : (s.line b).state = .sending a) :
    (s.setMode (lineOf b) (.transmitting octets echoes)).transmissionDone b =
      s.transmissionDone b := by
  simp only [State.transmissionDone, setMode_reads, ha, endTransmission_setMode hs]

/-- Nor to an echo mismatch. -/
theorem echoFault_setMode {s : State} {b : Branch} {octets echoes : List Octet} {a : Attempt}
    (hs : (s.framer (lineOf b)).mode.isTransmitting = true) (ha : (s.line b).state = .sending a) :
    (s.setMode (lineOf b) (.transmitting octets echoes)).echoFault b = s.echoFault b := by
  simp only [State.echoFault, setMode_reads, ha, endTransmission_setMode hs]

theorem exec_octet_echo {s : State} {b : Branch} {octets echoes : List Octet}
    (hr : s.inReset = false) (hm : (s.framer (lineOf b)).mode = .transmitting octets echoes)
    (o : Octet) (stop : Bool) :
    exec (.octetReceived (lineOf b) o stop) s = .next (s.compareEcho b octets echoes o stop) := by
  rw [exec_octetReceived hr]
  simp only [State.receiveOctet, hm, branchOf_lineOf]

/-- An echo that matches before the last advances the comparison. -/
theorem exec_echo_matched {s : State} {b : Branch} {octets rest : List Octet} {e : Octet}
    (hr : s.inReset = false) (hm : (s.framer (lineOf b)).mode = .transmitting octets (e :: rest))
    (hne : rest ≠ []) :
    exec (.octetReceived (lineOf b) e true) s =
      .next (s.setMode (lineOf b) (.transmitting octets rest)) := by
  rw [exec_octet_echo hr hm]
  cases rest with
  | nil => exact absurd rfl hne
  | cons f rest => simp [State.compareEcho]

/-- Echoes that match, with others still expected after them, advance the comparison by as many. -/
theorem receiveAll_matched {s : State} {b : Branch} {octets : List Octet} (hr : s.inReset = false)
    (matched : List Octet) {rest : List Octet} (hne : rest ≠ [])
    (hm : (s.framer (lineOf b)).mode = .transmitting octets (matched ++ rest)) :
    receiveAll (lineOf b) matched s = .next (s.setMode (lineOf b) (.transmitting octets rest)) := by
  induction matched generalizing s with
  | nil => exact congrArg _ (setMode_self hm).symm
  | cons e matched ih =>
    rw [receiveAll_cons (exec_echo_matched hr hm (by simp [hne])), ih (by simpa using hr) (by simp),
      setMode_setMode]

theorem receiveAll_append {l : Line} {xs ys : List Octet} {s t : State}
    (h : receiveAll l xs s = .next t) : receiveAll l (xs ++ ys) s = receiveAll l ys t := by
  induction xs generalizing s with
  | nil => obtain rfl := Host.Outcome.next.inj h; rfl
  | cons x xs ih =>
    cases hx : exec (.octetReceived l x true) s with
    | next u =>
      rw [receiveAll_cons hx] at h
      rw [List.cons_append, receiveAll_cons hx, ih h]
    | fault e => simp [receiveAll, hx] at h
    | refused e => simp [receiveAll, hx] at h

/-- Settles O9: the echoes before the last advance the comparison (`receiveAll_matched`), and neither
the completion nor a mismatch depends on how far it has come. -/
theorem echoesEndTheTransmission : Obligations.EchoesEndTheTransmission := by
  intro s b a octets echoes hr ha hm hne
  have hs : (s.framer (lineOf b)).mode.isTransmitting = true := by rw [hm]; rfl
  have done : exec (.branchTransmitCompletion b) s = .next (s.transmissionDone b) :=
    congrArg _ (whenRunning_of_running hr _)
  have fault : ∀ cause, exec (.echoMismatch b cause) s = .next (s.echoFault b) := fun cause =>
    congrArg _ (whenRunning_of_running hr _)
  refine ⟨?_, fun matched rest e o stop cause hsplit hbad => ?_⟩
  · obtain ⟨before, last, rfl⟩ := List.eq_nil_or_concat' echoes |>.resolve_left hne
    have echoed : exec (.octetReceived (lineOf b) last true)
          (s.setMode (lineOf b) (.transmitting octets [last])) =
        .next (s.transmissionDone b) := by
      rw [exec_octet_echo (by simpa using hr) (setMode_mode _ _ _)]
      simp only [State.compareEcho, and_self, if_true, transmissionDone_setMode hs ha]
    rw [done, receiveAll_append (receiveAll_matched hr before (by simp) hm), receiveAll_cons echoed]
    rfl
  · subst hsplit
    refine ⟨_, receiveAll_matched hr matched (by simp) hm, ?_⟩
    have differs : ¬ (o = e ∧ stop = true) := by
      rintro ⟨ho, hstop⟩; simp [ho, hstop] at hbad
    rw [fault, exec_octet_echo (by simpa using hr) (setMode_mode _ _ _)]
    simp only [State.compareEcho, if_neg differs, echoFault_setMode hs ha]

end Sys2Proof.Receptions

/-! SUPPORT. The step, hard reset, and the two expiries that start a transmission: the turnaround
timer of the trunk and the settle timer of a branch. -/

namespace Sys2Proof.StepAndResets

open Sys2Proof.Machine Sys2Proof.Safety Sys2Proof.Laws Sys2Proof.Transmissions
  Sys2Proof.Receptions

/-! ### The step -/

theorem stopBitToCome_iff_LastStopBitToCome (s : State) (b : Branch) :
    s.stopBitToCome b = true ↔ LastStopBitToCome s b := stopBitToCome_iff s b

/-- Where no last stop bit is to come, the time before an event does nothing. -/
theorem endStopBits_of_none {s : State} (h : ∀ b, ¬ LastStopBitToCome s b) : s.endStopBits = s := by
  obtain ⟨e, -⟩ | ⟨⟨b, hb⟩, -⟩ := endStopBits_cases s
  · exact e
  · exact absurd ((stopBitToCome_iff s b).mp hb) (h b)

/-- Where one is to come, DE outputs and the count of free choices change, and nothing else. -/
theorem endStopBits_of_some {s : State} (h : ∃ b, LastStopBitToCome s b) :
    s.endStopBits =
      { s with driverEnable := s.endStopBits.driverEnable, freeChoices := s.freeChoices + 1 } := by
  obtain ⟨-, hn⟩ | ⟨-, e⟩ := endStopBits_cases s
  · obtain ⟨b, hb⟩ := h
    rw [← stopBitToCome_iff_LastStopBitToCome, hn b] at hb
    simp at hb
  · exact e

/-- The waiting commands have no part in the end of a stop bit. -/
theorem endStopBits_withPending (s : State) (q : List Instr) :
    ({ s with pending := q } : State).endStopBits = { s.endStopBits with pending := q } := by
  unfold State.endStopBits
  have same : ({ s with pending := q } : State).stopBitToCome = s.stopBitToCome := rfl
  rw [same]
  split <;> rfl

theorem step_of_empty {s : State} (h : s.pending = []) :
    step s = .next (s.whenRunning State.endStopBits) := by simp only [step, h]

theorem step_of_cons {s : State} {c : Instr} {rest : List Instr} (h : s.pending = c :: rest) :
    step s = exec c (({ s with pending := rest } : State).whenRunning State.endStopBits) := by
  simp only [step, h]

theorem whenRunning_quiet {s : State}
    (h : s.inReset = true ∨ ∀ b, ¬ LastStopBitToCome s b) :
    s.whenRunning State.endStopBits = s := by
  obtain h | h := h
  · exact whenRunning_of_reset h _
  · simp only [State.whenRunning, endStopBits_of_none h, ite_self]

/-- The DE of each branch after the time before an event (R15, R187). -/
theorem endStopBits_driver (s : State) (b : Branch) :
    (LastStopBitToCome s b →
      s.endStopBits.driverEnable.get (lineOf b) = !Config.stopBitEnds s.freeChoices b) ∧
    (¬ LastStopBitToCome s b →
      s.endStopBits.driverEnable.get (lineOf b) = s.driverEnable.get (lineOf b)) := by
  rw [← stopBitToCome_iff_LastStopBitToCome]
  refine ⟨fun h => ?_, fun h => ?_⟩
  · have hd := ((stopBitToCome_iff s b).mp h).1
    simp [h, hd]
  · simp [h]

/-- Settles O1, with the state after `endStopBits` where a last stop bit is to come. -/
theorem stepRunsFrontCommand : Obligations.StepRunsFrontCommand := by
  refine ⟨fun c rest s h => ?_, fun s hp h => ?_, fun s hr h => ?_⟩
  · have quiet : ({ s with pending := rest } : State).whenRunning State.endStopBits =
        { s with pending := rest } := whenRunning_quiet h
    exact (step_of_cons rfl).trans (congrArg _ quiet)
  · rw [step_of_empty hp, whenRunning_quiet h]
  · refine ⟨s.endStopBits, endStopBits_of_some h, by simp, endStopBits_driver s, fun hp => ?_,
      fun c rest hp => ?_⟩
    · rw [step_of_empty hp, whenRunning_of_running hr]
    · have running : ({ s with pending := rest } : State).inReset = false := hr
      rw [step_of_cons hp, whenRunning_of_running running, endStopBits_withPending]

/-! ### Hard reset -/

theorem next_whenRunning_of_reset {f : State → State} {s : State} (hr : s.inReset = true) :
    (.next (s.whenRunning f) : Host.Outcome State Fault Refusal) = .next s :=
  congrArg _ (whenRunning_of_reset hr f)

/-- Settles O5: every other command takes effect only while the part is out of hard reset. -/
theorem hardResetTakesNothing : Obligations.HardResetTakesNothing := by
  intro c s hr hassert hrelease hpower
  cases c with
  | resetAssert cause => exact absurd rfl (hassert cause)
  | resetRelease a r => exact absurd rfl (hrelease a r)
  | powerOnRelease a r => exact absurd rfl (hpower a r)
  | _ => exact next_whenRunning_of_reset hr

theorem strapAddress_toNat (straps : BitVec 6) :
    (strapAddress straps).toNat = if straps.toNat = 0 then 250 else straps.toNat := by
  revert straps; decide

theorem strapRate_val (straps : BitVec 3) :
    (strapRate straps).val = if straps.toNat ≤ 5 then straps.toNat else 0 := by
  revert straps; decide

theorem atReset_branchRate (a : Octet) (r : RateCode) (b : Branch) :
    ((State.atReset a r).framer (lineOf b)).rate = 4 := by
  simp [State.atReset, State.framer, get_eq_getElem, lineOf, resetFramer]

/-- The reset content of a profile, item by item (R78). -/
theorem resetProfile_items :
    (∀ n : Fin 32, (resetProfile.ops.get n).code.toNat = n.val ∧ (resetProfile.ops.get n).cls =
      if n.val ≤ 0x07 then .read else if n.val ≤ 0x0F then .write else .control) ∧
    resetProfile.offset = 0 ∧ ∀ r : Fin 16, (resetProfile.faults.get r).toNat = r.val := by
  refine ⟨?_, rfl, ?_⟩ <;> decide

theorem atReset_bank (a : Octet) (r : RateCode) (k : BankId) :
    (State.atReset a r).bank k = resetBank := by cases k <;> rfl

/-- The state at the release of hard reset has the value of every block's chapter. -/
theorem atReset_values (a : Octet) (r : RateCode) : AtHardResetValues (State.atReset a r) := by
  refine ⟨fun l => ⟨atReset_framer_mode a r l, ?_⟩, atReset_branchRate a r, rfl, rfl, rfl,
    fun i => ⟨?_, ?_⟩, rfl, rfl, rfl, rfl, rfl, fun k i => ?_, fun k p => ?_, fun b => ?_, rfl,
    fun c => ?_, fun b c => ?_⟩
  · simp [State.atReset]
  · simp [State.atReset, State.record, resetSlot]
  · simp [State.atReset, State.issue, resetSlot]
  · simp [atReset_bank, resetBank]
  · simpa only [atReset_bank, resetBank, get_replicate] using resetProfile_items
  · simp [State.atReset, State.line, resetLine, defaultSettings]
  · simp [State.atReset, State.trunkCount]
  · simp [State.atReset, State.branchCount]

/-- What the model's own fields hold has no part in the values of hard reset. -/
theorem hardResetValues_of_own {s : State} (h : AtHardResetValues s) (n : Nat) (q : List Instr) :
    AtHardResetValues { s with freeChoices := n, pending := q } := h

theorem leaveReset_held {s : State} (h : s.inReset = true) (a : BitVec 6) (r : BitVec 3) :
    s.leaveReset a r = s := if_pos h

theorem leaveReset_free {s : State} (h : s.inReset = false) (a : BitVec 6) (r : BitVec 3) :
    s.leaveReset a r =
      { State.atReset (strapAddress a) (strapRate r) with
        freeChoices := s.freeChoices
        pending := s.pending } := if_neg (by simp [h])

/-- The part after the last of its two holds is gone (R2, R129, R186). -/
theorem leaveReset_released {s : State} (h : s.inReset = false) (a : BitVec 6) (r : BitVec 3) :
    (s.leaveReset a r).inReset = false ∧ AtHardResetValues (s.leaveReset a r) ∧
    (s.leaveReset a r).pending = s.pending ∧
    (s.leaveReset a r).ownAddress.toNat = (if a.toNat = 0 then 250 else a.toNat) ∧
    ((s.leaveReset a r).framer 0).rate.val = (if r.toNat ≤ 5 then r.toNat else 0) := by
  rw [leaveReset_free h]
  exact ⟨rfl, hardResetValues_of_own (atReset_values _ _) _ _, rfl, strapAddress_toNat a,
    strapRate_val r⟩

/-- Settles O4: a release that leaves the other hold changes its own bit alone (`leaveReset_held`),
and the last release samples the straps (`leaveReset_released`). -/
theorem releaseSamplesStraps : Obligations.ReleaseSamplesStraps := by
  intro s address rate released
  have pin : s.pinReset = true → exec (.resetRelease address rate) s =
      .next (({ s with pinReset := false } : State).leaveReset address rate) :=
    fun h => congrArg _ (if_pos h)
  have power : s.supplyReset = true → exec (.powerOnRelease address rate) s =
      .next (({ s with supplyReset := false } : State).leaveReset address rate) :=
    fun h => congrArg _ (if_pos h)
  refine ⟨fun hp hs => ⟨_, pin hp, leaveReset_released ?_ _ _⟩, fun hp hs => ?_,
    fun hp => congrArg _ (if_neg (by simp [hp])),
    fun hs hp => ⟨_, power hs, leaveReset_released ?_ _ _⟩, fun hs hp => ?_,
    fun hs => congrArg _ (if_neg (by simp [hs]))⟩
  · simp [State.inReset, hs]
  · rw [pin hp, leaveReset_held (by simp [State.inReset, hs])]
  · simp [State.inReset, hp]
  · rw [power hs, leaveReset_held (by simp [State.inReset, hp])]

/-! ### The turnaround expiry -/

/-- The trunk framer's transmission, whole (R15, R17). -/
theorem transmit_zero_eq (s : State) (t : Telegram) :
    s.transmit 0 t =
      { s with
        framers := s.framers.set 0 { s.framer 0 with mode := .transmitting (telegramOctets t) [] }
        driverEnable := s.driverEnable.set 0 true
        trunkCounters :=
          if (s.framer 0).mode.inProgress then (s.countTrunk .rxTorn).trunkCounters
          else s.trunkCounters } := by
  by_cases hp : (s.framer 0).mode.inProgress = true
  · simp only [State.transmit, hp, if_true]; rfl
  · simp only [State.transmit, hp]; rfl

theorem sendAnswer_of_none {s : State} (h : ∀ a n, s.answer ≠ .turnaround a n) :
    s.sendAnswer = s := by
  cases ha : s.answer with
  | turnaround a n => exact absurd ha (h a n)
  | empty => simp only [State.sendAnswer, ha]
  | sending a => simp only [State.sendAnswer, ha]

/-- The trunk framer compares no echo, and while it transmits no telegram completes (R17). -/
theorem trunk_deaf {s : State} (h : (s.framer 0).mode.isTransmitting = true) (o : Octet)
    (stop : Bool) (t : Telegram) :
    s.receiveOctet 0 o stop = s ∧ s.receiveTelegram 0 t = s := by
  refine ⟨?_, if_pos h⟩
  cases hm : (s.framer 0).mode with
  | transmitting octets echoes => simp only [State.receiveOctet, hm, branchOf_zero]
  | _ => rw [hm] at h; cases h

theorem whenRunning_same {s : State} {f : State → State} (h : f s = s) : s.whenRunning f = s := by
  simp only [State.whenRunning, h, ite_self]

/-- Settles O29. -/
theorem turnaroundExpirySendsAnswer : Obligations.TurnaroundExpirySendsAnswer := by
  refine ⟨fun s a n hr ha => ?_, fun s ha => ?_, fun s o stop t hm => ?_⟩
  · have sent : s.sendAnswer = ({ s with answer := .sending a } : State).transmit 0 a := by
      simp only [State.sendAnswer, ha]
    exact congrArg _ ((whenRunning_of_running hr _).trans (sent.trans (transmit_zero_eq _ a)))
  · exact congrArg _ (whenRunning_same (sendAnswer_of_none ha))
  · obtain ⟨octet, telegram⟩ := trunk_deaf hm o stop t
    exact ⟨congrArg _ (whenRunning_same octet), congrArg _ (whenRunning_same telegram)⟩

/-! ### The settle expiry -/

theorem settled_of_settling {s : State} {b : Branch} {n : Nat}
    (h : (s.line b).state = .settling n) : s.settled b = s.enterIdle b := by
  simp only [State.settled, h]

theorem settled_of_not_settling {s : State} {b : Branch}
    (h : ∀ n, (s.line b).state ≠ .settling n) : s.settled b = s := by
  cases hst : (s.line b).state with
  | settling n => exact absurd hst (h n)
  | _ => simp only [State.settled, hst]

/-- Abandoning a reception leaves HUNT, and what is no reception as it is (R2). -/
theorem abandonReception_eq (s : State) (l : Line) :
    s.abandonReception l =
      s.setMode l (if (s.framer l).mode.inProgress then .hunt else (s.framer l).mode) := by
  by_cases hp : (s.framer l).mode.inProgress = true
  · simp only [State.abandonReception, hp, if_true]
  · simp only [State.abandonReception, hp, Bool.false_eq_true, if_false, setMode_self rfl]

theorem applyRate_of_none {s : State} {b : Branch} (h : (s.line b).pendingRate = none) :
    s.applyRate b = s := by simp only [State.applyRate, h]

theorem applyRate_of_some {s : State} {b : Branch} {rate : RateCode}
    (h : (s.line b).pendingRate = some rate) :
    s.applyRate b =
      { s.setLine b { s.line b with pendingRate := none } with
        framers :=
          s.framers.set (lineOf b)
            { rate := rate
              mode := if (s.framer (lineOf b)).mode.inProgress then .hunt
                else (s.framer (lineOf b)).mode } } := by
  simp only [State.applyRate, h, abandonReception_eq]
  simp [State.setRate, State.setMode, State.setLine, State.framer]

/-- Settles O39: with and without a pending rate. -/
theorem settleExpiryEntersIdle : Obligations.SettleExpiryEntersIdle := by
  intro s b hr
  have run : exec (.settleExpiry b) s = .next (s.settled b) :=
    congrArg _ (whenRunning_of_running hr _)
  refine ⟨fun n hst => ?_, fun hst => ?_⟩
  · intro f entered
    have enters : (s.setLineState b .idle).applyRate b = entered := by
      cases hp : (s.line b).pendingRate with
      | none => simp only [entered, hp]; exact applyRate_of_none (by simp [hp])
      | some rate =>
        simp only [entered, hp]
        rw [applyRate_of_some (rate := rate) (by simp [hp])]
        simp [State.setLineState, f]
    rw [run, settled_of_settling hst, State.enterIdle, enters]
  · rw [run, settled_of_not_settling hst]

end Sys2Proof.StepAndResets

/-! SUPPORT. The moves of the exchange table: every command changes the records, the queues and the
attempts of the lines, ATTN, the drain count and the banks by a chain of a few atomic moves. An invariant
of the table that each move keeps is kept by every step. -/

namespace Sys2Proof.TableMoves

-- Theorems elaborated side by side each hold a thread; one after another the whole text fits in memory.
set_option Elab.async false

open Sys2Proof.Machine Sys2Proof.Safety Sys2Proof.Laws

/-! ### The records that the moves leave -/

/-- A record taken by its line (R35, R105). -/
def onLineRecord (r : Record) (life : Word) (seq : Octet) : Record :=
  { r with phase := .active .onLine life, branchSeq := some seq }

/-- A record that rejoins its queue (R38, R39). -/
def queuedRecord (r : Record) (life : Word) (seq : Option Octet) (retries : Nat) : Record :=
  { r with phase := .active .queued life, branchSeq := seq, retries := retries }

/-- A record that waits for a retransmission (R38). -/
def backoffRecord (r : Record) (life wait : Word) (f : Failure) : Record :=
  { r with phase := .active (.backoff wait) life, failure := some f, retries := r.retries - 1 }

/-- A record that waits for its next COLLECT (R37). -/
def deferredRecord (r : Record) (life wait : Word) (action : Action) : Record :=
  { r with phase := .active (.deferred wait) life, action := action, branchSeq := none }

/-- A record whose last failure is stored (R38). -/
def notedRecord (r : Record) (f : Failure) : Record := { r with failure := some f }

/-- A record whose result has been collected (R46). -/
def deliveredRecord (r : Record) (x : Result) (linger : Word) (stamp : Nat) : Record :=
  { r with phase := .delivered x linger stamp }

@[simp] theorem onLineRecord_fields (r : Record) (life : Word) (seq : Octet) :
    (onLineRecord r life seq).activeState = some .onLine ∧
    (onLineRecord r life seq).isActive = true ∧ (onLineRecord r life seq).isDone = false ∧
    (onLineRecord r life seq).deliveryStamp = none ∧
    (onLineRecord r life seq).branchSeq = some seq ∧
    (onLineRecord r life seq).action = r.action ∧
    (onLineRecord r life seq).branch = r.branch ∧ (onLineRecord r life seq).bank = r.bank ∧
    (onLineRecord r life seq).kind = r.kind ∧ (onLineRecord r life seq).outbound = r.outbound ∧
    (onLineRecord r life seq).target = r.target ∧
    (onLineRecord r life seq).phase = .active .onLine life :=
  ⟨rfl, rfl, rfl, rfl, rfl, rfl, rfl, rfl, rfl, rfl, rfl, rfl⟩

@[simp] theorem queuedRecord_fields (r : Record) (life : Word) (seq : Option Octet) (n : Nat) :
    (queuedRecord r life seq n).activeState = some .queued ∧
    (queuedRecord r life seq n).isActive = true ∧ (queuedRecord r life seq n).isDone = false ∧
    (queuedRecord r life seq n).deliveryStamp = none ∧
    (queuedRecord r life seq n).branchSeq = seq ∧
    (queuedRecord r life seq n).action = r.action ∧
    (queuedRecord r life seq n).branch = r.branch ∧ (queuedRecord r life seq n).bank = r.bank ∧
    (queuedRecord r life seq n).kind = r.kind ∧
    (queuedRecord r life seq n).outbound = r.outbound ∧
    (queuedRecord r life seq n).target = r.target :=
  ⟨rfl, rfl, rfl, rfl, rfl, rfl, rfl, rfl, rfl, rfl, rfl⟩

@[simp] theorem backoffRecord_fields (r : Record) (life wait : Word) (f : Failure) :
    (backoffRecord r life wait f).activeState = some (.backoff wait) ∧
    (backoffRecord r life wait f).isActive = true ∧
    (backoffRecord r life wait f).isDone = false ∧
    (backoffRecord r life wait f).deliveryStamp = none ∧
    (backoffRecord r life wait f).branchSeq = r.branchSeq ∧
    (backoffRecord r life wait f).action = r.action ∧
    (backoffRecord r life wait f).branch = r.branch ∧
    (backoffRecord r life wait f).bank = r.bank ∧
    (backoffRecord r life wait f).kind = r.kind ∧
    (backoffRecord r life wait f).outbound = r.outbound ∧
    (backoffRecord r life wait f).target = r.target :=
  ⟨rfl, rfl, rfl, rfl, rfl, rfl, rfl, rfl, rfl, rfl, rfl⟩

@[simp] theorem deferredRecord_fields (r : Record) (life wait : Word) (action : Action) :
    (deferredRecord r life wait action).activeState = some (.deferred wait) ∧
    (deferredRecord r life wait action).isActive = true ∧
    (deferredRecord r life wait action).isDone = false ∧
    (deferredRecord r life wait action).deliveryStamp = none ∧
    (deferredRecord r life wait action).branchSeq = none ∧
    (deferredRecord r life wait action).action = action ∧
    (deferredRecord r life wait action).branch = r.branch ∧
    (deferredRecord r life wait action).bank = r.bank ∧
    (deferredRecord r life wait action).kind = r.kind ∧
    (deferredRecord r life wait action).outbound = r.outbound ∧
    (deferredRecord r life wait action).target = r.target :=
  ⟨rfl, rfl, rfl, rfl, rfl, rfl, rfl, rfl, rfl, rfl, rfl⟩

@[simp] theorem notedRecord_fields (r : Record) (f : Failure) :
    (notedRecord r f).activeState = r.activeState ∧ (notedRecord r f).isActive = r.isActive ∧
    (notedRecord r f).isDone = r.isDone ∧ (notedRecord r f).deliveryStamp = r.deliveryStamp ∧
    (notedRecord r f).branchSeq = r.branchSeq ∧ (notedRecord r f).action = r.action ∧
    (notedRecord r f).branch = r.branch ∧ (notedRecord r f).bank = r.bank ∧
    (notedRecord r f).kind = r.kind ∧ (notedRecord r f).outbound = r.outbound ∧
    (notedRecord r f).target = r.target :=
  ⟨rfl, rfl, rfl, rfl, rfl, rfl, rfl, rfl, rfl, rfl, rfl⟩

@[simp] theorem deliveredRecord_fields (r : Record) (x : Result) (linger : Word) (n : Nat) :
    (deliveredRecord r x linger n).activeState = none ∧
    (deliveredRecord r x linger n).isActive = false ∧
    (deliveredRecord r x linger n).isDone = false ∧
    (deliveredRecord r x linger n).deliveryStamp = some n ∧
    (deliveredRecord r x linger n).branchSeq = r.branchSeq ∧
    (deliveredRecord r x linger n).action = r.action ∧
    (deliveredRecord r x linger n).branch = r.branch ∧
    (deliveredRecord r x linger n).bank = r.bank ∧
    (deliveredRecord r x linger n).kind = r.kind ∧
    (deliveredRecord r x linger n).outbound = r.outbound ∧
    (deliveredRecord r x linger n).target = r.target :=
  ⟨rfl, rfl, rfl, rfl, rfl, rfl, rfl, rfl, rfl, rfl, rfl⟩

@[simp] theorem newRecord_fields (s : State) (d : Fin 64) (e : DirEntry) (t : Telegram)
    (out : Outbound) :
    (s.newRecord d e t out).activeState = some .queued ∧
    (s.newRecord d e t out).isActive = true ∧ (s.newRecord d e t out).isDone = false ∧
    (s.newRecord d e t out).deliveryStamp = none ∧
    (s.newRecord d e t out).branchSeq = none ∧ (s.newRecord d e t out).action = .ask ∧
    (s.newRecord d e t out).branch = e.branch ∧ (s.newRecord d e t out).bank = s.live ∧
    (s.newRecord d e t out).kind = e.kind ∧ (s.newRecord d e t out).outbound = out ∧
    (s.newRecord d e t out).target = t.dest ∧
    (s.newRecord d e t out).admitStamp = s.nextAdmission :=
  ⟨rfl, rfl, rfl, rfl, rfl, rfl, rfl, rfl, rfl, rfl, rfl, rfl⟩

theorem isActive_of_phase {r : Record} {st : ActiveState} {life : Word}
    (h : r.phase = .active st life) : r.isActive = true := (isActive_iff r).mpr ⟨st, life, h⟩

theorem activeState_of_phase {r : Record} {st : ActiveState} {life : Word}
    (h : r.phase = .active st life) : r.activeState = some st :=
  (activeState_eq_some r st).mpr ⟨life, h⟩

theorem isActive_of_isDone {r : Record} (h : r.isDone = true) : r.isActive = false := by
  obtain ⟨x, hold, h⟩ := (isDone_iff r).mp h
  simp [Record.isActive, Record.activeState, h]

theorem isDone_of_phase {r : Record} {x : Result} {hold : Word} (h : r.phase = .done x hold) :
    r.isDone = true := (isDone_iff r).mpr ⟨x, hold, h⟩

/-- A DELIVERED record is neither active nor DONE. -/
theorem idle_of_deliveryStamp {r : Record} {n : Nat} (h : r.deliveryStamp = some n) :
    r.isActive = false ∧ r.isDone = false := by
  cases hp : r.phase with
  | active st life => simp [Record.deliveryStamp, hp] at h
  | done x hold => simp [Record.deliveryStamp, hp] at h
  | delivered x linger n => simp [Record.isActive, Record.activeState, Record.isDone, hp]

theorem activeState_of_inactive {r : Record} (h : r.isActive = false) : r.activeState = none := by
  simpa [Record.isActive] using h

/-! ### The moves -/

/-- A controller's change that the records do not see: its queue and its attempt's record stand, it
begins no attempt, and it is down only where it was, with the buffer as it was. -/
structure LineAlike (ln ln' : BranchLine) : Prop where
  queue : ln'.queue = ln.queue
  record : LineState.record ln'.state = LineState.record ln.state
  exchange : ∀ x, LineState.exchange ln'.state = some x → LineState.exchange ln.state = some x
  down : ln'.state.isDown = true → ln.state.isDown = true ∧ ln'.broadcast = ln.broadcast

theorem LineAlike.refl (ln : BranchLine) : LineAlike ln ln :=
  ⟨rfl, rfl, fun _ h => h, fun h => ⟨h, rfl⟩⟩

/-- Two states with the same exchange table, banks and roles, and with lines alike. -/
structure SameTable (s t : State) : Prop where
  record : ∀ i, t.record i = s.record i := by simp
  line : ∀ b, LineAlike (s.line b) (t.line b) := by simp [LineAlike.refl]
  attn : t.attn = s.attn := by simp
  bank : ∀ k, t.bank k = s.bank k := by simp
  live : t.live = s.live := by simp
  otherRole : t.otherRole = s.otherRole := by simp
  drainCount : t.drainCount = s.drainCount := by simp
  nextAdmission : t.nextAdmission = s.nextAdmission := by simp
  nextDelivery : t.nextDelivery = s.nextDelivery := by simp

/-- The controller enters a state of no attempt, and its broadcast buffer is set. -/
def discard (s : State) (b : Branch) (st : LineState) (bc : Option Broadcast) : State :=
  s.setLine b { s.line b with state := st, broadcast := bc }

/-- The record joins the tail of its branch queue. -/
def enqueue (s : State) (b : Branch) (i : SlotId) : State :=
  s.setLine b { s.line b with queue := (s.line b).queue ++ [i] }

/-- An admission stamp has been given (R22). -/
def admitNext (s : State) : State := { s with nextAdmission := s.nextAdmission + 1 }

/-- A delivery stamp has been given (R22). -/
def deliverNext (s : State) : State := { s with nextDelivery := s.nextDelivery + 1 }

@[simp] theorem admitNext_reads (s : State) :
    (∀ i, (admitNext s).record i = s.record i) ∧ (∀ b, (admitNext s).line b = s.line b) ∧
    (∀ k, (admitNext s).bank k = s.bank k) ∧ (admitNext s).attn = s.attn ∧
    (admitNext s).live = s.live ∧ (admitNext s).otherRole = s.otherRole ∧
    (admitNext s).drainCount = s.drainCount ∧ (admitNext s).nextDelivery = s.nextDelivery ∧
    (admitNext s).nextAdmission = s.nextAdmission + 1 :=
  ⟨fun _ => rfl, fun _ => rfl, fun k => by cases k <;> rfl, rfl, rfl, rfl, rfl, rfl, rfl⟩

@[simp] theorem deliverNext_reads (s : State) :
    (∀ i, (deliverNext s).record i = s.record i) ∧ (∀ b, (deliverNext s).line b = s.line b) ∧
    (∀ k, (deliverNext s).bank k = s.bank k) ∧ (deliverNext s).attn = s.attn ∧
    (deliverNext s).live = s.live ∧ (deliverNext s).otherRole = s.otherRole ∧
    (deliverNext s).drainCount = s.drainCount ∧ (deliverNext s).nextAdmission = s.nextAdmission ∧
    (deliverNext s).nextDelivery = s.nextDelivery + 1 :=
  ⟨fun _ => rfl, fun _ => rfl, fun k => by cases k <;> rfl, rfl, rfl, rfl, rfl, rfl, rfl⟩

/-- The other bank is written, and its role set. -/
def writeOther (s : State) (c : Bank) (role : OtherRole) : State :=
  { s.setBank s.live.other c with otherRole := role }

@[simp] theorem writeOther_reads (s : State) (c : Bank) (role : OtherRole) :
    (∀ i, (writeOther s c role).record i = s.record i) ∧
    (∀ b, (writeOther s c role).line b = s.line b) ∧
    (∀ k, (writeOther s c role).bank k = if k = s.live.other then c else s.bank k) ∧
    (writeOther s c role).attn = s.attn ∧ (writeOther s c role).live = s.live ∧
    (writeOther s c role).otherRole = role ∧ (writeOther s c role).drainCount = s.drainCount ∧
    (writeOther s c role).nextAdmission = s.nextAdmission ∧
    (writeOther s c role).nextDelivery = s.nextDelivery :=
  ⟨(setBank_reads s s.live.other c).2.2.1, (setBank_reads s s.live.other c).2.1,
   fun k => by rw [← setBank_bank]; cases k <;> rfl, by simp [writeOther],
   by simp [writeOther], rfl, by simp [writeOther], by simp [writeOther], by simp [writeOther]⟩

/-- The atomic moves. -/
inductive Move (s : State) : State → Prop where
  /-- nothing that the table sees -/
  | quiet {t : State} (same : SameTable s t) : Move s t
  /-- a queued record becomes the attempt of its idle line (R105) -/
  | take {b : Branch} {i : SlotId} {r : Record} {life : Word} (idle : (s.line b).state = .idle)
      (queued : i ∈ (s.line b).queue) (holds : s.record i = some r)
      (phase : r.phase = .active .queued life) : Move s (s.takeRecord b i)
  /-- a REQ is admitted into a FREE slot (R34) -/
  | opened {i : SlotId} {d : Fin 64} {e : DirEntry} {t : Telegram} {out : Outbound}
      (free : s.record i = none) (entry : s.liveBank.directory.get d = some e)
      (up : (s.line e.branch).state.isDown = false)
      (single : ∀ j q, s.record j = some q → ¬ Repeats q t.source t.seq t.dest)
      (dest : e.kind = .relay → out.dest = t.dest) :
      Move s (enqueue (admitNext (s.setRecord i (some (s.newRecord d e t out)))) e.branch i)
  /-- a record in BACKOFF or DEFERRED rejoins its queue (R38, R39) -/
  | rejoin {i : SlotId} {r : Record} {life : Word} {seq : Option Octet} {n : Nat}
      (holds : s.record i = some r)
      (waits : ∃ w, r.phase = .active (.backoff w) life ∨ r.phase = .active (.deferred w) life)
      (retries : n ≤ r.retries ∨ n = s.capturedBudget r) :
      Move s (enqueue (s.setRecord i (some (queuedRecord r life seq n))) r.branch i)
  /-- the attempt of a record fails with retries left (R38) -/
  | failed {b : Branch} {i : SlotId} {r : Record} {life : Word} (f : Failure) (wait : Word)
      (attempt : LineState.record (s.line b).state = some i) (holds : s.record i = some r)
      (phase : r.phase = .active .onLine life) :
      Move s ((s.settle b).setRecord i (some (backoffRecord r life wait f)))
  /-- the attempt of a record is answered HELD or WAIT (R37) -/
  | deferred {b : Branch} {x : Exchange} {i : SlotId} {r : Record} {life : Word} {own : Octet}
      {t : Telegram} {action : Action} (wait : Word)
      (attempt : LineState.exchange (s.line b).state = some x) (record : x.record = some i)
      (holds : s.record i = some r) (phase : r.phase = .active .onLine life)
      (accepted : x.judge own t = .accept)
      (answer : (t.kind = .held ∧ ∃ link, action = .collect link) ∨
        (t.kind = .wait ∧ action = r.action)) :
      Move s ((s.settle b).setRecord i (some (deferredRecord r life wait action)))
  /-- the attempt of no ON_LINE record of the branch ends, or the line goes down with no active
  record (R117, R122) -/
  | discard {b : Branch} {st : LineState} {bc : Option Broadcast}
      (ends : LineState.exchange st = none)
      (unheld : ∀ i r, LineState.record (s.line b).state = some i → s.record i = some r →
        r.activeState = some .onLine → r.branch ≠ b)
      (down : st.isDown = true →
        bc = none ∧ ∀ i r, s.record i = some r → r.isActive = true → r.branch ≠ b) :
      Move s (discard s b st bc)
  /-- a record completes (R25) -/
  | complete (i : SlotId) (x : Result) : Move s (s.complete i x)
  /-- a failure is stored (R38) -/
  | noted {i : SlotId} {r : Record} (f : Failure) (holds : s.record i = some r) :
      Move s (s.setRecord i (some (notedRecord r f)))
  /-- a DONE record is collected (R46) -/
  | collected {i : SlotId} {r : Record} {x : Result} {hold : Word} (linger : Word)
      (holds : s.record i = some r) (phase : r.phase = .done x hold) :
      Move s (deliverNext (s.setRecord i
        (some (deliveredRecord r x linger s.nextDelivery)))).releaseAttention
  /-- a DONE record is given up (R47) -/
  | unclaimed {i : SlotId} {r : Record} (holds : s.record i = some r) (done : r.isDone = true) :
      Move s (s.setRecord i none).releaseAttention
  /-- a DELIVERED record is freed (R33, R47) -/
  | freed {i : SlotId} {r : Record} {stamp : Nat} (holds : s.record i = some r)
      (delivered : r.deliveryStamp = some stamp) : Move s (s.setRecord i none)
  /-- the other bank is written, or re-seeded, while it does not drain (R82, R93) -/
  | bank (c : Bank) {role : OtherRole} (idle : s.otherRole ≠ .draining) (stays : role ≠ .draining) :
      Move s (writeOther s c role)
  /-- a COMMIT (R89) -/
  | promote (staged : s.otherRole = .staged) : Move s s.promote
  /-- a reset or a restart (R49, R50, R127, R128) -/
  | cleared {t : State} (record : ∀ i, t.record i = none)
      (line : ∀ b, (t.line b).queue = [] ∧ (t.line b).broadcast = none ∧
        LineState.exchange (t.line b).state = none)
      (attn : t.attn = false) (otherRole : t.otherRole = .staged) (drainCount : t.drainCount = 0) :
      Move s t

/-- A chain of moves. -/
abbrev Moves : State → State → Prop := Relation.ReflTransGen Move

theorem Move.moves {s t : State} (h : Move s t) : Moves s t := .single h

theorem SameTable.moves {s t : State} (h : SameTable s t) : Moves s t := (Move.quiet h).moves

/-- What each move keeps, a chain of moves keeps. -/
theorem Moves.keep {P : State → Prop} (one : ∀ s t, P s → Move s t → P t) {s t : State}
    (h : Moves s t) (hs : P s) : P t := by
  induction h with
  | refl => exact hs
  | tail _ m ih => exact one _ _ ih m

/-! ### Changes that the table does not see -/

theorem SameTable.setLine {s : State} {b : Branch} {ln : BranchLine} (h : LineAlike (s.line b) ln) :
    SameTable s (s.setLine b ln) where
  line c := by
    by_cases hc : c = b
    · subst hc; simpa using h
    · simpa [hc] using LineAlike.refl _

theorem lineAlike_of_state {ln ln' : BranchLine} (hq : ln'.queue = ln.queue)
    (hs : ln'.state = ln.state) (hb : ln'.broadcast = ln.broadcast) : LineAlike ln ln' :=
  ⟨hq, by rw [hs], fun x h => by rwa [← hs], fun h => ⟨by rwa [← hs], hb⟩⟩

/-- Neither the old state nor the new has a record's attempt, and the new one is not down. -/
theorem lineAlike_of_none {ln ln' : BranchLine} (hq : ln'.queue = ln.queue)
    (ho : LineState.record ln.state = none) (hn : LineState.exchange ln'.state = none)
    (hr : LineState.record ln'.state = none) (hd : ln'.state.isDown = false) : LineAlike ln ln' :=
  ⟨hq, by rw [ho, hr], fun x h => by simp [hn] at h, fun h => by simp [hd] at h⟩

theorem countBranch_same (s : State) (b : Branch) (c : BranchCounter) :
    SameTable s (s.countBranch b c) := {}

theorem countTrunk_same (s : State) (c : TrunkCounter) : SameTable s (s.countTrunk c) := {}

theorem placeAnswer_same (s : State) (a : Telegram) : SameTable s (s.placeAnswer a) := {}

theorem endTransmission_same (s : State) (l : Line) : SameTable s (s.endTransmission l) := {}

theorem takeBroadcast_same {s : State} {b : Branch} (bc : Broadcast)
    (h : (s.line b).state = .idle) : SameTable s (s.takeBroadcast b bc) where
  record i := by simp [State.takeBroadcast]
  line c := by
    by_cases hc : c = b
    · subst hc
      rw [takeBroadcast_line, if_pos rfl]
      exact lineAlike_of_none rfl (by rw [h]; rfl) rfl rfl rfl
    · simpa [hc] using LineAlike.refl _

theorem restartTurnaround_same (s : State) (l : Line) : SameTable s (s.restartTurnaround l) where
  line b := by simp [LineAlike.refl]

/-! ### The choice of claimant -/

theorem look_moves (s : State) (b : Branch) : Moves s (s.look b) := by
  refine look_keeps (Moves s) .refl (fun bc hidle _ => (takeBroadcast_same bc hidle).moves) ?_
  intro before i after hidle _ hq _ he
  obtain ⟨r, hr, ha, -⟩ := (eligible_iff s i).mp he
  obtain ⟨life, hlife⟩ := (activeState_eq_some r .queued).mp ha
  exact (Move.take hidle (by simp [hq]) hr hlife).moves

theorem lookAll_moves (s : State) : Moves s s.lookAll :=
  foldl_keeps_pred (Moves s) (fun u b hu => hu.trans (look_moves u b)) _ .refl

/-- A record in BACKOFF or DEFERRED that rejoins its queue, with the look that follows. -/
theorem rejoin_moves {s : State} {i : SlotId} {r : Record} {life : Word} (seq : Option Octet)
    (n : Nat) (holds : s.record i = some r)
    (waits : ∃ w, r.phase = .active (.backoff w) life ∨ r.phase = .active (.deferred w) life)
    (retries : n ≤ r.retries ∨ n = s.capturedBudget r) :
    Moves s ((s.setRecord i (some (queuedRecord r life seq n))).joinQueue r.branch i) :=
  (Move.rejoin holds waits retries).moves.trans (look_moves _ _)

/-! ### Completion and the end of an attempt -/

theorem completeAll_moves (s : State) (p : Record → Bool) (x : Result) :
    Moves s (s.completeAll p x) :=
  completeAll_keeps (Moves s) p x .refl fun _ i _ hu _ _ _ => hu.trans (Move.complete i x).moves

theorem completeEarly_moves (s : State) (i : SlotId) (x : Result) :
    Moves s (s.completeEarly i x) := by
  have done : Moves s (s.complete i x) := (Move.complete i x).moves
  simp only [State.completeEarly]
  split
  · exact .refl
  · split
    · exact done.trans (look_moves _ _)
    · exact done

theorem settle_eq_discard (s : State) (b : Branch) :
    s.settle b = discard s b (.settling 4) (s.line b).broadcast := rfl

theorem discard_line (s : State) (b c : Branch) (st : LineState) (bc : Option Broadcast) :
    (discard s b st bc).line c =
      if c = b then { s.line b with state := st, broadcast := bc } else s.line c := by
  simp [discard]

/-- A state of a line, where slot `i` is no attempt any more: its attempt is an orphan (R106, R120). -/
def orphanedState (i : SlotId) (st : LineState) : LineState :=
  match st with
  | .sending (.exchange x) => .sending (.exchange (x.orphaned i))
  | .listening x w => .listening (x.orphaned i) w
  | st => st

/-- What a record in slot `i` leaves of the controller of its branch when it completes (R25). -/
def leftBy (i : SlotId) (r : Record) (ln : BranchLine) : BranchLine :=
  match r.activeState with
  | some .queued => { ln with queue := ln.queue.erase i }
  | some .onLine => { ln with state := orphanedState i ln.state }
  | _ => ln

theorem orphan_eq (s : State) (b : Branch) (i : SlotId) :
    s.orphan b i = s.setLineState b (orphanedState i (s.line b).state) := by
  have same : orphanedState i (s.line b).state = (s.line b).state →
      s = s.setLineState b (orphanedState i (s.line b).state) := fun h => by
    rw [h]; exact (setLine_self s b).symm
  cases h : (s.line b).state with
  | sending a =>
    cases a with
    | exchange x => simp only [State.orphan, h, orphanedState]
    | broadcast seq => rw [h] at same; simpa only [State.orphan, h] using same rfl
  | listening x w => simp only [State.orphan, h, orphanedState]
  | _ => rw [h] at same; simpa only [State.orphan, h] using same rfl

theorem leaveLine_eq (s : State) (i : SlotId) (r : Record) :
    s.leaveLine i r = s.setLine r.branch (leftBy i r (s.line r.branch)) := by
  have same : s = s.setLine r.branch (s.line r.branch) := (setLine_self s _).symm
  unfold State.leaveLine leftBy
  cases r.activeState with
  | none => exact same
  | some st =>
    cases st with
    | queued => rfl
    | onLine => exact orphan_eq s r.branch i
    | backoff w => exact same
    | deferred w => exact same

theorem setLine_comm (s : State) {b c : Branch} (h : b ≠ c) (x y : BranchLine) :
    (s.setLine b x).setLine c y = (s.setLine c y).setLine b x := by
  simp [State.setLine, set_comm s.lines h]

theorem orphanedState_of_none {st : LineState} (h : LineState.exchange st = none) (i : SlotId) :
    orphanedState i st = st := by
  cases st with
  | sending a => cases a <;> simp_all [LineState.exchange, orphanedState]
  | listening x w => simp [LineState.exchange] at h
  | _ => rfl

theorem leftBy_discard (i : SlotId) (r : Record) (ln : BranchLine) {st : LineState}
    (bc : Option Broadcast) (hst : LineState.exchange st = none) :
    leftBy i r { ln with state := st, broadcast := bc } =
      { leftBy i r ln with state := st, broadcast := bc } := by
  simp only [leftBy]
  split
  · rfl
  · simp [orphanedState_of_none hst]
  · rfl

/-- What a completing record leaves on its branch, and the end of a line's attempt, change places. -/
theorem leaveLine_discard (s : State) (i : SlotId) (r : Record) (b : Branch) {st : LineState}
    (bc : Option Broadcast) (hst : LineState.exchange st = none) :
    (discard s b st bc).leaveLine i r = discard (s.leaveLine i r) b st bc := by
  simp only [leaveLine_eq, discard]
  by_cases hb : r.branch = b
  · simp [hb, leftBy_discard i r _ bc hst]
  · have hb' : b ≠ r.branch := Ne.symm hb
    simp [hb, hb', setLine_comm s hb']

/-- A departure, in one equation (R91). -/
theorem depart_eq (s : State) (k : BankId) :
    s.depart k =
      { s with
        drainCount :=
          if s.otherRole = .draining ∧ k ≠ s.live then s.drainCount - 1 else s.drainCount
        otherRole :=
          if (s.otherRole = .draining ∧ k ≠ s.live) ∧ s.drainCount ≤ 1 then .reseeding
          else s.otherRole } := by
  obtain ⟨e, h⟩ | ⟨hr, hk, hd, e⟩ | ⟨hr, hk, hd, e⟩ := depart_cases s k
  · simp only [e, h, false_and, if_false]
  · have : s.drainCount - 1 = 0 := by omega
    simp [e, hr, hk, hd, this]
  · have : ¬ s.drainCount ≤ 1 := by omega
    simp [e, hr, hk, this]

/-- Completion and the end of a line's attempt change places. -/
theorem complete_discard (s : State) (i : SlotId) (x : Result) (b : Branch) {st : LineState}
    (bc : Option Broadcast) (hst : LineState.exchange st = none) :
    (discard s b st bc).complete i x = discard (s.complete i x) b st bc := by
  have record : (discard s b st bc).record i = s.record i := by simp [discard]
  cases hr : s.record i with
  | none => simp only [State.complete, record, hr]
  | some r =>
    by_cases ha : r.isActive = true
    · rw [complete_of_active x hr ha, complete_of_active x (record.trans hr) ha,
        leaveLine_discard s i r b bc hst, depart_eq, depart_eq]
      rfl
    · simp [State.complete, record, hr, ha]

/-- The completion of a set of records and the end of a line's attempt change places. -/
theorem completeAll_discard (s : State) (p : Record → Bool) (x : Result) (b : Branch)
    {st : LineState} (bc : Option Broadcast) (hst : LineState.exchange st = none) :
    (discard s b st bc).completeAll p x = discard (s.completeAll p x) b st bc := by
  simp only [State.completeAll]
  generalize List.finRange 16 = l
  induction l generalizing s with
  | nil => rfl
  | cons i l ih =>
    have record : (discard s b st bc).record i = s.record i := by simp [discard]
    simp only [List.foldl_cons, record]
    split
    · rw [complete_discard s i x b bc hst, ih]
    · rw [ih]

/-! ### A line going down -/

/-- A line going down, before its records complete: its transmission is cut, and its broadcasts are
counted (R43, R122). -/
def dropBroadcasts (s : State) (b : Branch) : State :=
  let u := s.endTransmission (lineOf b)
  let u := if (s.line b).state.sendsBroadcast then u.countBranch b .bcastDropped else u
  if (s.line b).broadcast.isSome then u.countBranch b .bcastDropped else u

@[simp] theorem dropBroadcasts_frame (s : State) (b : Branch) :
    (dropBroadcasts s b).slots = s.slots ∧ (dropBroadcasts s b).lines = s.lines ∧
    (dropBroadcasts s b).holdTime = s.holdTime ∧ (dropBroadcasts s b).attn = s.attn ∧
    (dropBroadcasts s b).bankA = s.bankA ∧ (dropBroadcasts s b).bankB = s.bankB ∧
    (dropBroadcasts s b).live = s.live ∧ (dropBroadcasts s b).otherRole = s.otherRole ∧
    (dropBroadcasts s b).drainCount = s.drainCount ∧
    (dropBroadcasts s b).nextAdmission = s.nextAdmission ∧
    (dropBroadcasts s b).nextDelivery = s.nextDelivery := by
  simp only [dropBroadcasts]; (repeat' split) <;> simp

@[simp] theorem dropBroadcasts_reads (s : State) (b : Branch) :
    (∀ c, (dropBroadcasts s b).line c = s.line c) ∧
    (∀ i, (dropBroadcasts s b).record i = s.record i) ∧
    (∀ i, (dropBroadcasts s b).issue i = s.issue i) ∧
    ∀ k, (dropBroadcasts s b).bank k = s.bank k := by
  simp [State.line, State.record, State.issue, State.bank]

theorem dropBroadcasts_same (s : State) (b : Branch) : SameTable s (dropBroadcasts s b) := {}

theorem exchange_of_isDown {st : LineState} (h : st.isDown = true) :
    LineState.exchange st = none := by
  cases st <;> simp_all [LineState.isDown, LineState.exchange]

/-- A line going down, its parts in another order: the records complete before it is down. -/
theorem lineDown_eq (s : State) (b : Branch) {down : LineState} (h : down.isDown = true) :
    s.lineDown b down =
      discard ((dropBroadcasts s b).completeAll (fun r => r.branch == b)
        (.fault Reason.lineOff.octet none)) b down none := by
  rw [← completeAll_discard _ _ _ _ _ (exchange_of_isDown h)]
  simp only [State.lineDown, discard, dropBroadcasts_reads]
  rfl

/-- After the completion of the records of a branch none of them is active. -/
theorem completeAll_branch_inactive (s : State) (b : Branch) (x : Result) {i : SlotId} {r : Record}
    (hr : (s.completeAll (fun r => r.branch == b) x).record i = some r)
    (ha : r.isActive = true) : r.branch ≠ b := by
  rw [completeAll_record] at hr
  obtain ⟨q, -, rfl⟩ := Option.map_eq_some_iff.mp hr
  intro hb
  split at ha <;> simp_all

theorem isActive_of_activeState {r : Record} {st : ActiveState} (h : r.activeState = some st) :
    r.isActive = true := by simp [Record.isActive, h]

theorem lineDown_moves (s : State) (b : Branch) {down : LineState} (h : down.isDown = true) :
    Moves s (s.lineDown b down) := by
  rw [lineDown_eq s b h]
  have completed : Moves s ((dropBroadcasts s b).completeAll (fun r => r.branch == b)
      (.fault Reason.lineOff.octet none)) :=
    (dropBroadcasts_same s b).moves.trans (completeAll_moves _ _ _)
  exact completed.tail (.discard (exchange_of_isDown h)
    (fun i r _ hr ho => completeAll_branch_inactive _ b _ hr (isActive_of_activeState ho))
    fun _ => ⟨rfl, fun i r => completeAll_branch_inactive _ b _⟩)

/-! ### The outcome of an attempt -/

/-- An attempt of no record ends, and the line settles (R117, R120). -/
theorem settle_moves {s : State} {b : Branch} (h : ∀ i r,
    LineState.record (s.line b).state = some i → s.record i = some r →
      r.activeState = some .onLine → r.branch ≠ b) : Moves s (s.settle b) :=
  (Move.discard rfl h (fun hd => by cases hd)).moves

theorem orphanedState_record (i : SlotId) (st : LineState) :
    LineState.record (orphanedState i st) =
      if LineState.record st = some i then none else LineState.record st := by
  have dropped : ∀ x : Exchange,
      (x.orphaned i).record = if x.record = some i then none else x.record := by
    intro x; simp only [Exchange.orphaned]; split <;> rfl
  cases st with
  | sending a =>
    cases a with
    | exchange x => exact dropped x
    | broadcast seq => rfl
  | listening x w => exact dropped x
  | _ => rfl

@[simp] theorem orphanedState_isDown (i : SlotId) (st : LineState) :
    (orphanedState i st).isDown = st.isDown := by
  cases st with
  | sending a => cases a <;> rfl
  | _ => rfl

/-- What `leftBy` leaves as it was. -/
@[simp] theorem leftBy_frame (i : SlotId) (r : Record) (ln : BranchLine) :
    (leftBy i r ln).broadcast = ln.broadcast ∧ (leftBy i r ln).settings = ln.settings ∧
    (leftBy i r ln).pendingRate = ln.pendingRate ∧ (leftBy i r ln).seq = ln.seq ∧
    (leftBy i r ln).errors = ln.errors ∧ (leftBy i r ln).state.isDown = ln.state.isDown := by
  simp only [leftBy]; split <;> simp

theorem leftBy_queue (i : SlotId) (r : Record) (ln : BranchLine) :
    (leftBy i r ln).queue =
      if r.activeState = some .queued then ln.queue.erase i else ln.queue := by
  simp only [leftBy]; split <;> simp_all

theorem leftBy_state (i : SlotId) (r : Record) (ln : BranchLine) :
    (leftBy i r ln).state =
      if r.activeState = some .onLine then orphanedState i ln.state else ln.state := by
  simp only [leftBy]; split <;> simp_all

/-- The lines after the completion of an active record (R25). -/
theorem complete_line {s : State} {i : SlotId} {r : Record} (x : Result)
    (hr : s.record i = some r) (ha : r.isActive = true) (b : Branch) :
    (s.complete i x).line b = if b = r.branch then leftBy i r (s.line b) else s.line b := by
  rw [complete_of_active x hr ha, leaveLine_eq]
  by_cases hb : b = r.branch <;> simp [hb]

theorem complete_broadcast (s : State) (i : SlotId) (x : Result) (b : Branch) :
    ((s.complete i x).line b).broadcast = (s.line b).broadcast := by
  by_cases h : ∃ r, s.record i = some r ∧ r.isActive = true
  · obtain ⟨r, hr, ha⟩ := h
    rw [complete_line x hr ha]; split <;> simp
  · rw [complete_of_inactive x fun r hr => by simpa using fun ha => h ⟨r, hr, ha⟩]

/-- Completion gives no line another record's attempt. -/
theorem complete_attempt {s : State} {i j : SlotId} {x : Result} {b : Branch}
    (h : LineState.record ((s.complete i x).line b).state = some j) :
    LineState.record (s.line b).state = some j := by
  by_cases hr : ∃ r, s.record i = some r ∧ r.isActive = true
  · obtain ⟨r, hr, ha⟩ := hr
    rw [complete_line x hr ha] at h
    split at h
    · rw [leftBy_state] at h
      split at h
      · rw [orphanedState_record] at h; split at h <;> simp_all
      · exact h
    · exact h
  · rwa [complete_of_inactive x fun r hi => by simpa using fun ha => hr ⟨r, hi, ha⟩] at h

theorem complete_inactive {s : State} {i : SlotId} {x : Result} {r : Record}
    (h : (s.complete i x).record i = some r) : r.isActive = false := by
  rw [complete_record, if_pos rfl] at h
  obtain ⟨q, -, rfl⟩ := Option.map_eq_some_iff.mp h
  split <;> simp_all

theorem complete_settle (s : State) (b : Branch) (i : SlotId) (x : Result) :
    (s.settle b).complete i x = (s.complete i x).settle b := by
  rw [settle_eq_discard, settle_eq_discard, complete_discard _ _ _ _ _ rfl, complete_broadcast]

/-- The attempt of a record ends with its completion. -/
theorem settle_complete_moves (s : State) {b : Branch} {i : SlotId} (x : Result)
    (h : LineState.record (s.line b).state = some i) : Moves s ((s.settle b).complete i x) := by
  rw [complete_settle]
  refine (Move.complete i x).moves.trans (settle_moves fun j r hj hr ho => ?_)
  obtain rfl : i = j := Option.some.inj (h.symm.trans (complete_attempt hj))
  simpa [isActive_of_activeState ho] using complete_inactive hr

theorem setRecord_record_same (s : State) (i : SlotId) (r : Record) :
    (s.setRecord i (some r)).record i = some r := by simp

/-- The attempt of a record ends with a failure (R38). -/
theorem settle_reportFailure_moves (s : State) {b : Branch} {i : SlotId} (f : Failure)
    (h : LineState.record (s.line b).state = some i) :
    Moves s ((s.settle b).reportFailure i f) := by
  obtain ⟨e, hn⟩ | ⟨r, life, hr, hp, ⟨-, e⟩ | ⟨-, -, e⟩ | ⟨-, -, e⟩⟩ :=
    reportFailure_cases (s.settle b) i f
  · rw [e]
    refine settle_moves fun j r hj hr ho => ?_
    obtain rfl : i = j := Option.some.inj (h.symm.trans hj)
    exact absurd ho (hn r (by simpa using hr))
  · rw [e]
    have noted := (Move.noted f (s := s) (by simpa using hr)).moves
    exact noted.trans (settle_complete_moves (s.setRecord i _) _ h)
  · rw [e]
    have failed := (Move.failed f 0 h (by simpa using hr) hp).moves
    refine failed.trans ?_
    have rejoined := rejoin_moves r.branchSeq (r.retries - 1)
      (setRecord_record_same (s.settle b) i (backoffRecord r life 0 f))
      ⟨0, .inl rfl⟩ (.inl le_rfl)
    rw [setRecord_setRecord] at rejoined
    exact rejoined
  · rw [e]; exact (Move.failed f _ h (by simpa using hr) hp).moves

theorem record_eq_bind (st : LineState) :
    LineState.record st = (LineState.exchange st).bind Exchange.record := by
  cases st with
  | sending a => cases a <;> rfl
  | _ => rfl

/-- What an attempt accepts (R112). -/
theorem judge_accept {x : Exchange} {own : Octet} {t : Telegram} (h : x.judge own t = .accept) :
    t.kind = .ans ∨ t.kind = .fault ∨ (t.kind = .held ∧ ∃ source, x.sought = .ask .relay source) ∨
      (t.kind = .wait ∧ ∃ k source ticket, x.sought = .collect k source ticket) := by
  simp only [Exchange.judge] at h
  split at h
  · simp only [Sought.judge] at h
    (repeat' split at h) <;> simp_all
  · cases h

/-- The attempt of a record ends with an accepted answer (R36, R37). -/
theorem settle_reportAnswer_moves (s : State) {b : Branch} {x : Exchange} {i : SlotId} {own : Octet}
    {t : Telegram} (hx : LineState.exchange (s.line b).state = some x) (hi : x.record = some i)
    (ha : x.judge own t = .accept) :
    Moves s ((s.settle b).reportAnswer i t) := by
  have h : LineState.record (s.line b).state = some i := by rw [record_eq_bind, hx]; exact hi
  obtain ⟨e, hn⟩ | ⟨r, life, hr, hp, ⟨y, e, -⟩ | ⟨action, e, hk⟩⟩ :=
    reportAnswer_cases (s.settle b) i t
  · rw [e]
    refine settle_moves fun j r hj hr ho => ?_
    obtain rfl : i = j := Option.some.inj (h.symm.trans hj)
    have accepts := judge_accept ha
    obtain hn | hk | hk := hn
    · exact absurd ho (hn r (by simpa using hr))
    · simp [hk] at accepts
    · simp [hk] at accepts
  · rw [e]; exact settle_complete_moves s y h
  · rw [e]
    exact (Move.deferred _ hx hi (by simpa using hr) hp ha
      (hk.imp (fun h => ⟨h.1, _, h.2⟩) id)).moves

/-! ### The events of a branch line -/

theorem acceptAnswer_moves {s : State} {b : Branch} {x : Exchange} {own : Octet} {t : Telegram}
    (hx : LineState.exchange (s.line b).state = some x) (ha : x.judge own t = .accept) :
    Moves s (s.acceptAnswer b x t) := by
  simp only [State.acceptAnswer]
  split
  · exact settle_reportAnswer_moves s hx ‹_› ha
  · rename_i hn
    refine (countBranch_same s b .orphans).moves.trans (settle_moves fun i r hi => ?_)
    simp [record_eq_bind, hx, hn] at hi

theorem rejectAnswer_moves {s : State} {b : Branch} {x : Exchange}
    (hx : LineState.exchange (s.line b).state = some x) : Moves s (s.rejectAnswer b x) := by
  simp only [State.rejectAnswer]
  split
  · rename_i i hi
    refine (countBranch_same s b .badAnswer).moves.trans (settle_reportFailure_moves _ _ ?_)
    simp [record_eq_bind, hx, hi]
  · rename_i hn
    refine (countBranch_same s b .orphans).moves.trans (settle_moves fun i r hi => ?_)
    simp [record_eq_bind, hx, hn] at hi

theorem branchTake_moves (s : State) (b : Branch) (t : Telegram) : Moves s (s.branchTake b t) := by
  have counted : ∀ c, Moves s (s.countBranch b c) := fun c => (countBranch_same s b c).moves
  simp only [State.branchTake]
  split
  · rename_i x w hst
    have hx : LineState.exchange (s.line b).state = some x := by rw [hst]; rfl
    split
    · exact acceptAnswer_moves hx ‹_›
    · exact rejectAnswer_moves hx
    · exact counted _
  · exact .refl
  all_goals exact counted _

/-- A transmission has ended, and the count of line errors is set (R109, R110). -/
theorem errors_moves (s : State) (b : Branch) (n : Nat) :
    Moves s (s.setLine b { s.line b with errors := n }) :=
  (SameTable.setLine (ln := { s.line b with errors := n }) (lineAlike_of_state rfl rfl rfl)).moves

theorem transmissionDone_moves (s : State) (b : Branch) : Moves s (s.transmissionDone b) := by
  simp only [State.transmissionDone]
  split
  · rename_i a hst
    have ended := ((endTransmission_same s (lineOf b)).moves.trans (errors_moves _ b 0))
    split
    · rename_i x
      refine (ended.trans (countBranch_same _ b .sent).moves).trans (SameTable.setLine ?_).moves
      exact ⟨rfl, by simp [hst, LineState.record], by simp [hst, LineState.exchange],
        fun h => by cases h⟩
    · refine (ended.trans (countBranch_same _ b .bcastSent).moves).trans
        (settle_moves fun i r hi => ?_)
      simp [hst, LineState.record] at hi
  all_goals exact .refl

theorem attemptFailed_moves {s : State} {b : Branch} {a : Attempt}
    (h : (s.line b).state = .sending a) : Moves s ((s.settle b).attemptFailed b a) := by
  simp only [State.attemptFailed]
  split
  · rename_i x
    split
    · rename_i i hi
      exact settle_reportFailure_moves s _ (by rw [h]; exact hi)
    · rename_i hn
      exact settle_moves fun i r hi => by rw [h] at hi; exact absurd (hn.symm.trans hi) (by simp)
  · rename_i seq
    exact (settle_moves fun i r hi => by rw [h] at hi; cases hi).trans
      (countBranch_same _ _ _).moves

theorem echoFault_moves (s : State) (b : Branch) : Moves s (s.echoFault b) := by
  simp only [State.echoFault]
  split
  · rename_i a hst
    have counted := ((endTransmission_same s (lineOf b)).moves.trans
      (countBranch_same _ b .lineErrors).moves).trans (errors_moves _ b
        ((((s.endTransmission (lineOf b)).countBranch b .lineErrors).line b).errors + 1))
    split
    · exact counted.trans (attemptFailed_moves (by simp [hst]))
    · exact counted.trans (lineDown_moves _ b rfl)
  all_goals exact .refl

theorem windowExpired_moves (s : State) (b : Branch) : Moves s (s.windowExpired b) := by
  simp only [State.windowExpired]
  split
  · rename_i x w hst
    have counted := (countBranch_same s b .noAnswer).moves
    split
    · rename_i i hi
      exact counted.trans (settle_reportFailure_moves _ _ (by simp [hst, LineState.record, hi]))
    · rename_i hn
      exact counted.trans (settle_moves fun i r hi => by simp [hst, LineState.record, hn] at hi)
  all_goals exact .refl

theorem applyRate_moves (s : State) (b : Branch) : Moves s (s.applyRate b) := by
  simp only [State.applyRate]
  split
  · exact .refl
  · have rate : SameTable s ((s.abandonReception (lineOf b)).setRate (lineOf b) ‹_›) := {}
    refine rate.moves.trans (SameTable.setLine ?_).moves
    exact lineAlike_of_state (by simp) (by simp) (by simp)

/-- A line of no attempt enters IDLE (R117, R124). -/
theorem enterIdle_moves {s : State} {b : Branch}
    (h : LineState.record (s.line b).state = none) : Moves s (s.enterIdle b) := by
  have idle : SameTable s (s.setLineState b .idle) :=
    SameTable.setLine (lineAlike_of_none rfl h rfl rfl rfl)
  exact (idle.moves.trans (applyRate_moves _ b)).trans (look_moves _ b)

theorem settled_moves (s : State) (b : Branch) : Moves s (s.settled b) := by
  simp only [State.settled]
  split
  · rename_i n hst; exact enterIdle_moves (by rw [hst]; rfl)
  all_goals exact .refl

/-! ### The table's events -/

theorem lifetimeExpired_moves (s : State) (i : SlotId) : Moves s (s.lifetimeExpired i) := by
  simp only [State.lifetimeExpired]
  split
  · exact .refl
  · exact completeEarly_moves s i _

theorem waitExpired_moves (s : State) (i : SlotId) : Moves s (s.waitExpired i) := by
  simp only [State.waitExpired]
  split
  · exact .refl
  · rename_i r hr
    split
    · rename_i w ha
      obtain ⟨life, hp⟩ := (activeState_eq_some _ _).mp ha
      rw [withActive_of_active hp]
      exact rejoin_moves (r := r) r.branchSeq r.retries hr ⟨w, .inl hp⟩ (.inl le_rfl)
    · rename_i w ha
      obtain ⟨life, hp⟩ := (activeState_eq_some _ _).mp ha
      rw [withActive_of_active hp]
      exact rejoin_moves (r := r) none (s.capturedBudget r) hr ⟨w, .inr hp⟩ (.inr rfl)
    all_goals exact .refl

theorem holdExpired_moves (s : State) (i : SlotId) : Moves s (s.holdExpired i) := by
  simp only [State.holdExpired]
  split
  · exact .refl
  · rename_i r hr
    split
    · rename_i hd
      have counted := (countTrunk_same s .unclaimed).moves
      exact counted.trans
        (Move.unclaimed (s := s.countTrunk .unclaimed) (i := i) (by simpa using hr) hd).moves
    · exact .refl

theorem lingerExpired_moves (s : State) (i : SlotId) : Moves s (s.lingerExpired i) := by
  simp only [State.lingerExpired]
  split
  · exact .refl
  · rename_i r hr
    split
    · rename_i x linger stamp hp
      exact (Move.freed (stamp := stamp) hr (by simp [Record.deliveryStamp, hp])).moves
    all_goals exact .refl

theorem reseeded_moves (s : State) : Moves s s.reseeded := by
  simp only [State.reseeded]
  split
  · rename_i h; exact (Move.bank s.liveBank (by simp [h]) (by simp)).moves
  all_goals exact .refl

/-! ### Resets -/

theorem atReset_cleared (s : State) {t : State} {a : Octet} {r : RateCode}
    (hs : t.slots = (State.atReset a r).slots) (hl : t.lines = (State.atReset a r).lines)
    (ha : t.attn = false) (ho : t.otherRole = .staged) (hd : t.drainCount = 0) : Move s t := by
  refine .cleared (fun i => ?_) (fun b => ?_) ha ho hd
  · simp [State.record, hs, State.atReset, resetSlot]
  · simp [State.line, hl, State.atReset, resetLine, LineState.exchange]

theorem hardReset_moves (s u : State) : Moves s u.hardReset :=
  (atReset_cleared s (t := u.hardReset) (a := u.ownAddress) (r := (u.framer 0).rate)
    rfl rfl rfl rfl rfl).moves

theorem leaveReset_moves (s : State) (a : BitVec 6) (r : BitVec 3) : Moves s (s.leaveReset a r) := by
  simp only [State.leaveReset]
  split
  · exact .refl
  · refine Move.moves (atReset_cleared s (a := strapAddress a) (r := strapRate r) ?_ ?_ ?_ ?_ ?_) <;>
      rfl

theorem restartNow_moves (s : State) : Moves s s.restartNow := by
  refine (Move.cleared (fun i => ?_) (fun b => ?_) rfl rfl rfl).moves
  · simp [State.restartNow, State.record]
  · have exchange : ∀ ln : BranchLine, LineState.exchange ln.restarted.state = none := by
      intro ln; simp only [BranchLine.restarted]; split <;> rfl
    simp only [State.restartNow, State.line, get_map]
    exact ⟨rfl, rfl, exchange _⟩

/-! ### The trunk port -/

theorem withAnswer_same (s : State) (a : AnswerBuffer) : SameTable s { s with answer := a } :=
  ⟨fun _ => rfl, fun _ => .refl _, rfl, fun k => by cases k <;> rfl, rfl, rfl, rfl, rfl, rfl⟩

theorem answerSent_moves (s : State) : Moves s s.answerSent := by
  simp only [State.answerSent]
  split
  · have ended : Moves s (({ s with answer := .empty } : State).endTransmission 0) :=
      (withAnswer_same s _).moves.trans (endTransmission_same _ 0).moves
    split
    · exact ended.trans (restartNow_moves _)
    · exact ended
  all_goals exact .refl

theorem sendAnswer_moves (s : State) : Moves s s.sendAnswer := by
  simp only [State.sendAnswer]
  split
  · have sent : ∀ u : State, ∀ a, SameTable u (u.transmit 0 a) := fun u a => {}
    exact (withAnswer_same s _).moves.trans (sent _ _).moves
  all_goals exact .refl

/-- The answer HELD with the ticket that a record gets at its admission (R21, R34). -/
def heldAnswer (s : State) (i : SlotId) (t : Telegram) : Telegram :=
  answerTo t s.ownAddress .held (ticketOf (s.issue i + 1) i) []

theorem openRecord_eq (s : State) (i : SlotId) (r : Record) (t : Telegram) :
    s.openRecord i r t =
      (enqueue (((admitNext ((s.setIssue i (s.issue i + 1)).setRecord i (some r))).placeAnswer
        (heldAnswer s i t)).countTrunk .admitted) r.branch i).look r.branch := by
  have ticket : (admitNext ((s.setIssue i (s.issue i + 1)).setRecord i (some r))).ticket i =
      ticketOf (s.issue i + 1) i := by
    simp [State.ticket, admitNext, State.issue, State.setRecord, State.setIssue]
  simp only [heldAnswer, ← ticket]
  rfl

theorem SameTable.enqueue {s t : State} (h : SameTable s t) (lines : ∀ c, t.line c = s.line c)
    (b : Branch) (i : SlotId) : SameTable (enqueue s b i) (enqueue t b i) where
  record j := by simp [TableMoves.enqueue, h.record]
  line c := by simp [TableMoves.enqueue, lines, LineAlike.refl]
  attn := h.attn
  bank := h.bank
  live := h.live
  otherRole := h.otherRole
  drainCount := h.drainCount
  nextAdmission := h.nextAdmission
  nextDelivery := h.nextDelivery

/-- The admission of a REQ into a FREE slot, with the look that follows (R34). -/
theorem openRecord_moves {s : State} {i : SlotId} {d : Fin 64} {e : DirEntry} {t : Telegram}
    {out : Outbound} (free : s.record i = none) (entry : s.liveBank.directory.get d = some e)
    (up : (s.line e.branch).state.isDown = false)
    (single : ∀ j q, s.record j = some q → ¬ Repeats q t.source t.seq t.dest)
    (dest : e.kind = .relay → out.dest = t.dest) :
    Moves s (s.openRecord i (s.newRecord d e t out) t) := by
  rw [openRecord_eq]
  refine ((Move.opened free entry up single dest).moves.trans (SameTable.moves ?_)).trans
    (look_moves _ e.branch)
  exact SameTable.enqueue {} (by simp) e.branch i

/-- Only a bank that does not drain is written (R82). -/
theorem setBank_moves {s : State} (c : Bank) (h : s.otherRole = .staged) :
    Moves s (s.setBank s.live.other c) := by
  have role : (s.setBank s.live.other c).otherRole ≠ .draining := by simp [h]
  exact (Move.bank c (by simp [h]) role).moves

theorem writeBranch_moves (s : State) (b : Branch) (c : Settings) : Moves s (s.writeBranch b c) := by
  have taken : Moves s (s.takeSettings b c) := by
    refine (SameTable.setLine ?_).moves
    exact lineAlike_of_state rfl rfl rfl
  simp only [State.writeBranch]
  split
  · simp only [State.enable]
    split
    · rename_i hd
      refine (taken.trans (errors_moves _ b 0)).trans (enterIdle_moves ?_)
      simp [record_eq_bind, exchange_of_isDown hd]
    · exact taken
  · simp only [State.disable]
    split
    · exact taken
    · exact taken.trans (lineDown_moves _ b rfl)

theorem effect_moves {s u : State} (h : Effect s u) : Moves s u := by
  have other : ∀ {u : State}, SameTable s u → Moves s u := SameTable.moves
  cases h with
  | none => exact .refl
  | slot i e staged _ => exact setBank_moves _ staged
  | profile p edit staged => exact setBank_moves _ staged
  | promote staged _ _ => exact (Move.promote staged).moves
  | retire _ => exact (completeAll_moves _ _ _).trans (lookAll_moves _)
  | trunk hold linger _ _ =>
    exact other ⟨fun _ => rfl, fun _ => .refl _, rfl, fun k => by cases k <;> rfl, rfl, rfl, rfl,
      rfl, rfl⟩
  | branch b c _ => exact writeBranch_moves s b c
  | cancel i r _ _ => exact completeEarly_moves s i _
  | clear n => exact other {}
  | restart =>
    exact other ⟨fun _ => rfl, fun _ => .refl _, rfl, fun k => by cases k <;> rfl, rfl, rfl, rfl,
      rfl, rfl⟩

theorem manage_moves (s : State) (t : Telegram) : Moves s (s.manage t) :=
  manage_keeps (Moves s) t (fun _ he => effect_moves he)
    (fun u a hu => hu.trans (placeAnswer_same u a).moves)
    (fun u c hu => hu.trans (countTrunk_same u c).moves)

theorem find_some {k : Bank} {a : Octet} {d : Fin 64} {e : DirEntry} (h : k.find a = some (d, e)) :
    k.directory.get d = some e ∧ e.logical = a := by
  obtain ⟨j, -, hj⟩ := List.exists_of_findSome?_eq_some h
  split at hj
  · split at hj
    · obtain ⟨rfl, rfl⟩ := Prod.mk.inj (Option.some.inj hj)
      exact ⟨‹_›, ‹_›⟩
    · cases hj
  · cases hj

/-- The outbound Dest of a RELAY is the target (R58). -/
theorem requestOutbound_dest {k : Bank} {e : DirEntry} {t : Telegram} {out : Outbound}
    (h : requestOutbound k e t = .ok out) (hk : e.kind = .relay) : out.dest = t.dest := by
  simp only [requestOutbound] at h
  split at h
  · cases h
  · split at h
    · cases h
    · split at h
      · cases h
      · rw [← Except.ok.inj h, hk]

theorem not_repeats_of_duplicateOf {s : State} {t : Telegram} (h : s.duplicateOf t = none)
    (j : SlotId) (q : Record) (hq : s.record j = some q) : ¬ Repeats q t.source t.seq t.dest := by
  have := List.find?_eq_none.mp h j (List.mem_finRange j)
  rintro ⟨h1, h2, h3⟩
  simp [hq, h1, h2, h3] at this

theorem deliveryStamp_of_earliest {s : State} {i : SlotId} (h : s.earliestDelivered = some i) :
    ∃ r stamp, s.record i = some r ∧ r.deliveryStamp = some stamp := by
  have := List.find?_some h
  obtain ⟨stamp, hd, -⟩ := Option.any_eq_true _ _ |>.mp this
  obtain ⟨r, hr, hs⟩ := Option.bind_eq_some_iff.mp hd
  exact ⟨r, stamp, hr, hs⟩

theorem judgeRequest_moves {s : State} {d : Fin 64} {e : DirEntry} {t : Telegram}
    (entry : s.liveBank.directory.get d = some e) : Moves s (s.judgeRequest d e t) := by
  have answered : ∀ a c, Moves s ((s.placeAnswer a).countTrunk c) := fun a c =>
    (placeAnswer_same s a).moves.trans (countTrunk_same _ c).moves
  obtain ⟨i, -, h⟩ | ⟨reason, -, h⟩ | ⟨out, u, i, hd, ho, hup, -, hs, h⟩ :=
    judgeRequest_cases s d e t <;> rw [h]
  · exact answered _ _
  · exact answered _ _
  · have single := not_repeats_of_duplicateOf hd
    obtain ⟨rfl, hf⟩ | ⟨-, he, rfl⟩ := supply_cases hs
    · exact openRecord_moves ((freeSlot_eq_some u i).mp hf).1 entry hup single
        (requestOutbound_dest ho)
    · obtain ⟨r, stamp, hr, hstamp⟩ := deliveryStamp_of_earliest he
      refine (Move.freed hr hstamp).moves.trans (openRecord_moves (by simp) ?_ ?_ ?_
        (requestOutbound_dest ho))
      · simpa using entry
      · simpa using hup
      · intro j q hq
        by_cases hj : j = i
        · simp [hj] at hq
        · exact single j q (by simpa [hj] using hq)

theorem collectFor_moves (s : State) (t : Telegram) : Moves s (s.collectFor t) := by
  obtain ⟨a, h⟩ | ⟨a, h⟩ | ⟨i, r, x, hold, a, hr, hp, h⟩ := collectFor_cases s t <;> rw [h]
  · exact (placeAnswer_same s a).moves
  · exact (placeAnswer_same s a).moves.trans (countTrunk_same _ _).moves
  · exact ((placeAnswer_same s a).moves.trans
      (Move.collected (s := s.placeAnswer a) s.lingerTime (by simpa using hr) hp).moves).trans
      (countTrunk_same _ _).moves

theorem offerBroadcast_moves (s : State) (bc : Broadcast) (b : Branch) :
    Moves s (s.offerBroadcast bc b) := by
  simp only [State.offerBroadcast]
  split
  · exact (countBranch_same _ _ _).moves
  · rename_i h
    have up : (s.line b).state.isDown = false := by simp_all
    refine (SameTable.setLine ?_).moves.trans (look_moves _ b)
    exact ⟨rfl, rfl, fun _ h => h, fun h => by simp [up] at h⟩

theorem relayBroadcast_moves (s : State) (bc : Broadcast) : Moves s (s.relayBroadcast bc) :=
  foldl_keeps_pred (Moves s) (fun u b hu => hu.trans (offerBroadcast_moves u bc b)) _ .refl

theorem trunkTake_moves (s : State) (t : Telegram) : Moves s (s.trunkTake t) := by
  obtain h | h | h | ⟨-, -, -, -, d, e, hf, h⟩ | ⟨-, -, -, h⟩ | ⟨-, -, -, h⟩ | ⟨-, -, -, -, h⟩ :=
    trunkTake_cases s t <;> rw [h]
  · exact (countTrunk_same s _).moves
  · exact (countTrunk_same s _).moves
  · exact judgeRequest_moves (find_some hf).1
  · exact manage_moves s t
  · exact collectFor_moves s t
  · exact relayBroadcast_moves s _

/-! ### Every step -/

/-- Every event is a chain of moves. -/
theorem moves_keptByEvents (s : State) : KeptByEvents (Moves s) where
  choice _ _ h := h.trans (SameTable.moves ⟨fun _ => rfl, fun _ => .refl _, rfl,
    fun k => by cases k <;> rfl, rfl, rfl, rfl, rfl, rfl⟩)
  pin _ h := h.trans (hardReset_moves _ _)
  supply _ h := h.trans (hardReset_moves _ _)
  pinRelease u a r h := (h.trans (SameTable.moves (t := { u with pinReset := false })
    ⟨fun _ => rfl, fun _ => .refl _, rfl, fun k => by cases k <;> rfl, rfl, rfl, rfl, rfl,
      rfl⟩)).trans (leaveReset_moves _ a r)
  supplyRelease u a r h := (h.trans (SameTable.moves (t := { u with supplyReset := false })
    ⟨fun _ => rfl, fun _ => .refl _, rfl, fun k => by cases k <;> rfl, rfl, rfl, rfl, rfl,
      rfl⟩)).trans (leaveReset_moves _ a r)
  turnaround u l h := h.trans (restartTurnaround_same u l).moves
  receive u l m h _ _ := h.trans (SameTable.moves {})
  check u l h := h.trans (SameTable.moves {})
  torn u l h := h.trans (SameTable.moves {})
  malformed u l h := h.trans (SameTable.moves {})
  echo u b octets echoes rest h _ := h.trans (SameTable.moves {})
  trunk u t h _ _ := h.trans (trunkTake_moves u t)
  branch u b t h _ _ := h.trans (branchTake_moves u b t)
  send u h := h.trans (sendAnswer_moves u)
  sent u h := h.trans (answerSent_moves u)
  done u b h := h.trans (transmissionDone_moves u b)
  mismatch u b h := h.trans (echoFault_moves u b)
  window u b h := h.trans (windowExpired_moves u b)
  settled u b h := h.trans (settled_moves u b)
  lifetime u i h := h.trans (lifetimeExpired_moves u i)
  wait u i h := h.trans (waitExpired_moves u i)
  hold u i h := h.trans (holdExpired_moves u i)
  linger u i h := h.trans (lingerExpired_moves u i)
  reseed u h := h.trans (reseeded_moves u)

theorem endStopBits_same (s : State) : SameTable s s.endStopBits :=
  ⟨by simp [State.record], by simp [State.line, LineAlike.refl], by simp,
    fun k => by cases k <;> simp [State.bank], by simp, by simp, by simp, by simp, by simp⟩

/-- Every step is a chain of moves. -/
theorem step_moves {s t : State} (h : step s = .next t) : Moves s t :=
  step_keeps (moves_keptByEvents s)
    (fun u q hu => hu.trans (SameTable.moves ⟨fun _ => rfl, fun _ => .refl _, rfl,
      fun k => by cases k <;> rfl, rfl, rfl, rfl, rfl, rfl⟩))
    (fun u hu => hu.trans (endStopBits_same u).moves) .refl h

/-- What every move keeps, every step keeps. -/
theorem step_keep {P : State → Prop} (one : ∀ s t, P s → Move s t → P t) {s t : State} (hs : P s)
    (h : step s = .next t) : P t :=
  (step_moves h).keep one hs

end Sys2Proof.TableMoves

/-! SUPPORT. The invariants of the exchange table, move by move: the stamps and identities of the records
(R22, R29), the drain count and the captured slots (R62, R90), lines that are down (R43), ATTN (R26), the
queues (R24), and the attempts with the fields that they hold (R22, R102, R106). -/

namespace Sys2Proof.TableMoves

-- Theorems elaborated side by side each hold a thread; one after another the whole text fits in memory.
set_option Elab.async false

open Sys2Proof.Machine Sys2Proof.Safety Sys2Proof.Laws

/-! ### What a record keeps through a move -/

/-- The record `q` is the record `r` of the state `s`, further on. -/
structure Inherits (s : State) (r q : Record) : Prop where
  opener : q.opener = r.opener := by rfl
  opening : q.opening = r.opening := by rfl
  target : q.target = r.target := by rfl
  stamp : q.admitStamp = r.admitStamp := by rfl
  bank : q.bank = r.bank := by rfl
  dirSlot : q.dirSlot = r.dirSlot := by rfl
  branch : q.branch = r.branch := by rfl
  kind : q.kind = r.kind := by rfl
  outbound : q.outbound = r.outbound := by rfl
  active : q.isActive = true → r.isActive = true
  retries : q.retries ≤ r.retries ∨ q.retries = s.capturedBudget r := by exact .inl le_rfl

theorem Inherits.refl (s : State) (r : Record) : Inherits s r r where
  active h := h

/-- Every record of a state comes from one of the state before, in its slot, and its bank is written
only where it is the other one and does not drain. -/
structure Carries (s t : State) : Prop where
  record : ∀ i q, t.record i = some q → ∃ r, s.record i = some r ∧ Inherits s r q
  admission : s.nextAdmission ≤ t.nextAdmission := by simp
  bank : ∀ k, t.bank k = s.bank k ∨ (k = s.live.other ∧ s.otherRole ≠ .draining) := by
    exact fun _ => .inl (by simp)

/-- At most one record changes, and it moves on or is freed. -/
theorem carries_record {s t : State} {i : SlotId} (others : ∀ j, j ≠ i → t.record j = s.record j)
    (here : ∀ q, t.record i = some q → ∃ r, s.record i = some r ∧ Inherits s r q) (j : SlotId)
    (p : Record) (hp : t.record j = some p) : ∃ r, s.record j = some r ∧ Inherits s r p := by
  by_cases hj : j = i
  · exact hj ▸ here p (hj ▸ hp)
  · exact ⟨p, (others j hj).symm.trans hp, .refl s p⟩

theorem carries_same {s t : State} (ht : ∀ j, t.record j = s.record j) (j : SlotId) (p : Record)
    (hp : t.record j = some p) : ∃ r, s.record j = some r ∧ Inherits s r p :=
  ⟨p, (ht j).symm.trans hp, .refl s p⟩

theorem takeRecord_onLine {s : State} {i : SlotId} {r : Record} {life : Word} {b : Branch}
    (h : s.record i = some r) (hp : r.phase = .active .queued life) (j : SlotId) :
    (s.takeRecord b i).record j =
      if j = i then some (onLineRecord r life (r.branchSeq.getD ((s.line b).seq + 1)))
      else s.record j := by
  rw [takeRecord_record h, withActive_of_active hp]
  rfl

theorem complete_carries (s : State) (i : SlotId) (x : Result) : Carries s (s.complete i x) where
  record j q hq := by
    rw [complete_record] at hq
    split at hq
    · rename_i hj
      subst hj
      obtain ⟨r, hr, rfl⟩ := Option.map_eq_some_iff.mp hq
      refine ⟨r, hr, ?_⟩
      split
      · exact { active := fun h => by simp at h }
      · exact .refl s r
    · exact ⟨q, hq, .refl s q⟩

/-- What a move does to the records: one is opened, all are cleared, or each comes from the state
before. -/
theorem Move.carries {s t : State} (m : Move s t) :
    (∃ i d e tel out, s.record i = none ∧ s.liveBank.directory.get d = some e ∧
      (s.line e.branch).state.isDown = false ∧
      (∀ j q, s.record j = some q → ¬ Repeats q tel.source tel.seq tel.dest) ∧
      (e.kind = .relay → out.dest = tel.dest) ∧
      t = enqueue (admitNext (s.setRecord i (some (s.newRecord d e tel out)))) e.branch i) ∨
    (∀ i, t.record i = none) ∨ Carries s t := by
  cases m with
  | opened free entry up single dest =>
    exact .inl ⟨_, _, _, _, _, free, entry, up, single, dest, rfl⟩
  | cleared record _ _ _ _ => exact .inr (.inl record)
  | quiet same =>
    exact .inr (.inr ⟨carries_same same.record, by rw [same.nextAdmission],
      fun k => .inl (same.bank k)⟩)
  | @take b i r life idle queued holds phase =>
    refine .inr (.inr { record := carries_record (i := i) ?_ ?_ })
    · simp +contextual [takeRecord_record holds b]
    · simp only [takeRecord_onLine holds phase, if_true, Option.some.injEq, forall_eq']
      exact ⟨r, holds, { active := fun _ => isActive_of_phase phase }⟩
  | @rejoin i r life seq n holds waits retries =>
    have active : r.isActive = true := by
      obtain ⟨w, h | h⟩ := waits <;> exact isActive_of_phase h
    refine .inr (.inr
      { record := carries_record (i := i) ?_ ?_
        admission := by simp [enqueue]
        bank := by simp [enqueue] })
    · simp +contextual [enqueue]
    · simp only [enqueue, setLine_reads, setRecord_record, if_true, Option.some.injEq, forall_eq']
      exact ⟨r, holds, { active := fun _ => active, retries := retries }⟩
  | @failed b i r life f wait attempt holds phase =>
    refine .inr (.inr { record := carries_record (i := i) (by simp +contextual) ?_ })
    simp only [setRecord_record, if_true, Option.some.injEq, forall_eq']
    exact ⟨r, holds,
      { active := fun _ => isActive_of_phase phase, retries := .inl (Nat.sub_le _ _) }⟩
  | @deferred b x i r life own tel action wait attempt record holds phase accepted answer =>
    refine .inr (.inr { record := carries_record (i := i) (by simp +contextual) ?_ })
    simp only [setRecord_record, if_true, Option.some.injEq, forall_eq']
    exact ⟨r, holds, { active := fun _ => isActive_of_phase phase }⟩
  | discard ends unheld down =>
    exact .inr (.inr
      { record := carries_same (by simp [TableMoves.discard])
        admission := by simp [TableMoves.discard]
        bank := by simp [TableMoves.discard] })
  | complete i x => exact .inr (.inr (complete_carries s i x))
  | @noted i r f holds =>
    refine .inr (.inr { record := carries_record (i := i) (by simp +contextual) ?_ })
    simp only [setRecord_record, if_true, Option.some.injEq, forall_eq']
    exact ⟨r, holds, { active := fun h => h }⟩
  | @collected i r x hold linger holds phase =>
    refine .inr (.inr { record := carries_record (i := i) (by simp +contextual) ?_ })
    simp only [releaseAttention_reads, deliverNext_reads, setRecord_record, if_true,
      Option.some.injEq, forall_eq']
    exact ⟨r, holds, { active := fun h => by simp at h }⟩
  | @unclaimed i r holds done =>
    exact .inr (.inr { record := carries_record (i := i) (by simp +contextual) (by simp) })
  | @freed i r stamp holds delivered =>
    exact .inr (.inr { record := carries_record (i := i) (by simp +contextual) (by simp) })
  | bank c idle stays =>
    refine .inr (.inr { record := carries_same (by simp), bank := fun k => ?_ })
    by_cases hk : k = s.live.other
    · exact .inr ⟨hk, idle⟩
    · exact .inl (by simp [hk])
  | promote staged => exact .inr (.inr { record := carries_same (by simp) })

/-! ### No two records alike -/

theorem enqueue_record (s : State) (b : Branch) (i j : SlotId) :
    (enqueue s b i).record j = s.record j := by simp [enqueue]

theorem noTwins_move {s t : State} (h : NoTwinRecords s ∧ StampsOrdered s) (m : Move s t) :
    NoTwinRecords t ∧ StampsOrdered t := by
  obtain ⟨twin, below, differ⟩ := h
  obtain ⟨i, d, e, tel, out, free, -, -, single, -, rfl⟩ | none | c := m.carries
  · have record : ∀ j q, (enqueue (admitNext (s.setRecord i (some (s.newRecord d e tel out))))
        e.branch i).record j = some q →
        (j = i ∧ q = s.newRecord d e tel out) ∨ (j ≠ i ∧ s.record j = some q) := by
      intro j q hq
      by_cases hj : j = i
      · exact .inl ⟨hj, by simpa [enqueue_record, hj, eq_comm] using hq⟩
      · exact .inr ⟨hj, by simpa [enqueue_record, hj] using hq⟩
    refine ⟨fun j k q p hq hp ho hs ht => ?_, fun j q hq => ?_, fun j k q p hq hp hs => ?_⟩
    · obtain ⟨rfl, rfl⟩ | ⟨hj, hq'⟩ := record j q hq <;>
        obtain ⟨rfl, rfl⟩ | ⟨hk, hp'⟩ := record k p hp
      · rfl
      · exact absurd ⟨ho.symm, hs.symm, ht.symm⟩ (single k p hp')
      · exact absurd ⟨ho, hs, ht⟩ (single j q hq')
      · exact twin j k q p hq' hp' ho hs ht
    · have next : (enqueue (admitNext (s.setRecord i (some (s.newRecord d e tel out)))) e.branch
          i).nextAdmission = s.nextAdmission + 1 := rfl
      rw [next]
      obtain ⟨rfl, rfl⟩ | ⟨hj, hq'⟩ := record j q hq
      · exact Nat.lt_succ_self _
      · exact (below j q hq').trans (Nat.lt_succ_self _)
    · obtain ⟨rfl, rfl⟩ | ⟨hj, hq'⟩ := record j q hq <;>
        obtain ⟨rfl, rfl⟩ | ⟨hk, hp'⟩ := record k p hp
      · rfl
      · exact absurd hs (below k p hp').ne'
      · exact absurd hs (below j q hq').ne
      · exact differ j k q p hq' hp' hs
  · exact ⟨fun j _ q _ hq => by simp [none] at hq, fun j q hq => by simp [none] at hq,
      fun j _ q _ hq => by simp [none] at hq⟩
  · refine ⟨fun j k q p hq hp ho hs ht => ?_, fun j q hq => ?_, fun j k q p hq hp hs => ?_⟩
    · obtain ⟨r, hr, i⟩ := c.record j q hq
      obtain ⟨r', hr', i'⟩ := c.record k p hp
      exact twin j k r r' hr hr' (i.opener ▸ i'.opener ▸ ho) (i.opening ▸ i'.opening ▸ hs)
        (i.target ▸ i'.target ▸ ht)
    · obtain ⟨r, hr, i⟩ := c.record j q hq
      rw [i.stamp]
      exact (below j r hr).trans_le c.admission
    · obtain ⟨r, hr, i⟩ := c.record j q hq
      obtain ⟨r', hr', i'⟩ := c.record k p hp
      exact differ j k r r' hr hr' (i.stamp ▸ i'.stamp ▸ hs)

/-! ### Delivery stamps -/

theorem deliveryStamp_of_record {s t : State} {i : SlotId}
    (others : ∀ j, j ≠ i → t.record j = s.record j)
    (here : ∀ n, t.deliveryStamp i = some n → s.deliveryStamp i = some n)
    (j : SlotId) (n : Nat) (h : t.deliveryStamp j = some n) : s.deliveryStamp j = some n := by
  by_cases hj : j = i
  · exact hj ▸ here n (hj ▸ h)
  · simpa only [State.deliveryStamp, others j hj] using h

theorem deliveryStamp_of_same {s t : State} (ht : ∀ j, t.record j = s.record j)
    (j : SlotId) (n : Nat) (h : t.deliveryStamp j = some n) : s.deliveryStamp j = some n := by
  simpa only [State.deliveryStamp, ht] using h

/-- A move gives no delivery stamp but to a collected record, which gets the next one. -/
theorem Move.deliveries {s t : State} (m : Move s t) :
    (∃ i, t.nextDelivery = s.nextDelivery + 1 ∧ t.deliveryStamp i = some s.nextDelivery ∧
      ∀ j n, j ≠ i → t.deliveryStamp j = some n → s.deliveryStamp j = some n) ∨
    (∀ i, t.record i = none) ∨
    (s.nextDelivery ≤ t.nextDelivery ∧
      ∀ j n, t.deliveryStamp j = some n → s.deliveryStamp j = some n) := by
  cases m with
  | @collected i r x hold linger holds phase =>
    refine .inl ⟨i, by simp, by simp [State.deliveryStamp], fun j n hj h => ?_⟩
    simpa [State.deliveryStamp, hj] using h
  | cleared record _ _ _ _ => exact .inr (.inl record)
  | quiet same =>
    exact .inr (.inr ⟨by rw [same.nextDelivery], deliveryStamp_of_same same.record⟩)
  | @take b i r life idle queued holds phase =>
    have record := takeRecord_onLine (b := b) holds phase
    exact .inr (.inr ⟨by simp, deliveryStamp_of_record (i := i) (by simp +contextual [record])
      (by simp [State.deliveryStamp, record])⟩)
  | @opened i d e tel out free entry up single dest =>
    exact .inr (.inr ⟨by simp [enqueue],
      deliveryStamp_of_record (i := i) (by simp +contextual [enqueue])
        (by simp [State.deliveryStamp, enqueue])⟩)
  | @rejoin i r life seq n holds waits retries =>
    exact .inr (.inr ⟨by simp [enqueue],
      deliveryStamp_of_record (i := i) (by simp +contextual [enqueue])
        (by simp [State.deliveryStamp, enqueue])⟩)
  | @failed b i r life f wait attempt holds phase =>
    exact .inr (.inr ⟨by simp, deliveryStamp_of_record (i := i) (by simp +contextual)
      (by simp [State.deliveryStamp])⟩)
  | @deferred b x i r life own tel action wait attempt record holds phase accepted answer =>
    exact .inr (.inr ⟨by simp, deliveryStamp_of_record (i := i) (by simp +contextual)
      (by simp [State.deliveryStamp])⟩)
  | discard ends unheld down =>
    exact .inr (.inr ⟨by simp [TableMoves.discard],
      deliveryStamp_of_same (by simp [TableMoves.discard])⟩)
  | complete i x =>
    refine .inr (.inr ⟨by simp, deliveryStamp_of_record (i := i)
      (by simp +contextual [complete_record]) fun n h => ?_⟩)
    rw [State.deliveryStamp, complete_record, if_pos rfl] at h
    obtain ⟨q, hq, hn⟩ := Option.bind_eq_some_iff.mp h
    obtain ⟨r, hr, rfl⟩ := Option.map_eq_some_iff.mp hq
    split at hn
    · simp [Record.deliveryStamp] at hn
    · simp [State.deliveryStamp, hr, hn]
  | @noted i r f holds =>
    exact .inr (.inr ⟨by simp, deliveryStamp_of_record (i := i) (by simp +contextual)
      (by simp [State.deliveryStamp, holds])⟩)
  | @unclaimed i r holds done =>
    exact .inr (.inr ⟨by simp, deliveryStamp_of_record (i := i) (by simp +contextual)
      (by simp [State.deliveryStamp])⟩)
  | @freed i r stamp holds delivered =>
    exact .inr (.inr ⟨by simp, deliveryStamp_of_record (i := i) (by simp +contextual)
      (by simp [State.deliveryStamp])⟩)
  | bank c idle stays => exact .inr (.inr ⟨by simp, deliveryStamp_of_same (by simp)⟩)
  | promote staged => exact .inr (.inr ⟨by simp, deliveryStamp_of_same (by simp)⟩)

theorem deliveries_move {s t : State} (h : DeliveriesOrdered s) (m : Move s t) :
    DeliveriesOrdered t := by
  obtain ⟨below, differ⟩ := h
  obtain ⟨i, next, given, others⟩ | none | ⟨next, others⟩ := m.deliveries
  · refine ⟨fun j n hn => ?_, fun j k n hj hk => ?_⟩
    · rw [next]
      by_cases hj : j = i
      · obtain rfl := Option.some.inj (given.symm.trans (hj ▸ hn))
        exact Nat.lt_succ_self _
      · exact (below j n (others j n hj hn)).trans (Nat.lt_succ_self _)
    · have one : ∀ {j}, t.deliveryStamp j = some n → j ≠ i → n < s.nextDelivery := fun hn hne =>
        below _ n (others _ n hne hn)
      have other : t.deliveryStamp i = some n → n = s.nextDelivery := fun hn =>
        Option.some.inj (hn.symm.trans given)
      by_cases hji : j = i <;> by_cases hki : k = i
      · rw [hji, hki]
      · subst hji; exact absurd (other hj) (one hk hki).ne
      · subst hki; exact absurd (other hk) (one hj hji).ne
      · exact differ j k n (others j n hji hj) (others k n hki hk)
  · have no : ∀ j n, t.deliveryStamp j ≠ some n := fun j n => by simp [State.deliveryStamp, none]
    exact ⟨fun j n hn => absurd hn (no j n), fun j k n hj => absurd hj (no j n)⟩
  · exact ⟨fun j n hn => (below j n (others j n hn)).trans_le next,
      fun j k n hj hk => differ j k n (others j n hj) (others k n hk)⟩

/-- Settles O54: a new record gets the next stamp and repeats no other (R29, R34), and a collected one
the next delivery stamp. -/
theorem recordsStayDistinct : Obligations.RecordsStayDistinct :=
  ⟨fun _ _ => step_keep fun _ _ => noTwins_move, fun _ _ => step_keep fun _ _ => deliveries_move⟩

/-! ### The drain count -/

theorem countRecords_congr {s t : State} {p : Record → Bool}
    (h : ∀ j, (t.record j).any p = (s.record j).any p) : t.countRecords p = s.countRecords p := by
  simp only [State.countRecords, h]

/-- An active record that refers to bank `k` stands in a slot. -/
abbrev refersTo (k : BankId) (o : Option Record) : Bool := o.any fun r => r.isActive && r.bank == k

theorem drainCounted_of_same {s t : State} (h : DrainCounted s) (live : t.live = s.live)
    (role : t.otherRole = s.otherRole) (count : t.drainCount = s.drainCount)
    (refers : ∀ j, refersTo s.live.other (t.record j) = refersTo s.live.other (s.record j)) :
    DrainCounted t := by
  have same : t.activeIn s.live.other = s.activeIn s.live.other := countRecords_congr refers
  simpa only [DrainCounted, live, role, count, same] using h

theorem refers_of_record {s t : State} {i : SlotId} {k : BankId}
    (others : ∀ j, j ≠ i → t.record j = s.record j)
    (here : refersTo k (t.record i) = refersTo k (s.record i)) (j : SlotId) :
    refersTo k (t.record j) = refersTo k (s.record j) := by
  by_cases hj : j = i
  · rw [hj, here]
  · rw [others j hj]

theorem activeIn_eq_zero {s : State} {k : BankId} :
    s.activeIn k = 0 ↔ ∀ i r, s.record i = some r → r.isActive = true → r.bank ≠ k := by
  rw [State.activeIn, countRecords_eq_zero]
  simp

/-- While the other bank does not drain, no active record refers to it (R90). -/
theorem bank_eq_live {s : State} (h : DrainCounted s) (hr : s.otherRole ≠ .draining) {i : SlotId}
    {r : Record} (hi : s.record i = some r) (ha : r.isActive = true) : r.bank = s.live := by
  have zero : s.activeIn s.live.other = 0 := by
    rw [← h.1]
    exact Nat.eq_zero_of_not_pos fun hpos => hr (h.2.mpr hpos)
  by_contra hb
  exact activeIn_eq_zero.mp zero i r hi ha (BankId.ne_iff_eq_other.mp hb)

theorem complete_drainCounted {s : State} (i : SlotId) (x : Result) (h : DrainCounted s) :
    DrainCounted (s.complete i x) := by
  by_cases hr : ∃ r, s.record i = some r ∧ r.isActive = true
  case neg => rwa [complete_of_inactive x fun r hi => by simpa using fun ha => hr ⟨r, hi, ha⟩]
  obtain ⟨r, hr, ha⟩ := hr
  have count : (s.complete i x).activeIn s.live.other + (if r.bank = s.live.other then 1 else 0) =
      s.activeIn s.live.other := by
    have := countRecords_setRecord s (fun r => r.isActive && r.bank == s.live.other) i
      (some (r.completed x s.holdTime))
    have same : (s.complete i x).activeIn s.live.other =
        (s.setRecord i (some (r.completed x s.holdTime))).activeIn s.live.other :=
      countRecords_congr fun j => by simp [complete_record, hr, ha]
    rw [same]
    simpa [State.activeIn, hr, ha] using this
  have eq : (s.complete i x).drainCount = (s.depart r.bank).drainCount ∧
      (s.complete i x).otherRole = (s.depart r.bank).otherRole := by
    rw [complete_of_active x hr ha, depart_eq, depart_eq]
    simp
  obtain ⟨hc, hd⟩ := h
  simp only [DrainCounted, eq, complete_frame]
  obtain ⟨e, hn⟩ | ⟨hrole, hk, hle, e⟩ | ⟨hrole, hk, hlt, e⟩ := depart_cases s r.bank <;> rw [e]
  · have live : r.bank ≠ s.live.other := fun hb => by
      have : ¬ s.otherRole = .draining := fun hrole => hn ⟨hrole, by simp [hb]⟩
      exact BankId.other_ne _ (hb.symm.trans (bank_eq_live ⟨hc, hd⟩ this hr ha))
    simp only [live, if_false, add_zero] at count
    exact ⟨hc.trans count.symm, hd⟩
  · rw [if_pos (BankId.ne_iff_eq_other.mp hk)] at count
    exact ⟨by simp only; omega, by simp⟩
  · rw [if_pos (BankId.ne_iff_eq_other.mp hk)] at count
    refine ⟨by simp only; omega, ?_⟩
    simp only [hrole, true_iff]
    omega

theorem drainCounted_move {s t : State} (h : DrainCounted s) (m : Move s t) : DrainCounted t := by
  have same := drainCounted_of_same (t := t) h
  cases m with
  | quiet q => exact same q.live q.otherRole q.drainCount fun j => by rw [q.record]
  | @take b i r life idle queued holds phase =>
    have record := takeRecord_onLine (b := b) holds phase
    exact same (by simp) (by simp) (by simp) (refers_of_record (i := i)
      (by simp +contextual [record]) (by simp [record, holds, isActive_of_phase phase]))
  | @opened i d e tel out free entry up single dest =>
    exact same (by simp [enqueue]) (by simp [enqueue]) (by simp [enqueue])
      (refers_of_record (i := i) (by simp +contextual [enqueue]) (by simp [enqueue, free]))
  | @rejoin i r life seq n holds waits retries =>
    have active : r.isActive = true := by
      obtain ⟨w, h | h⟩ := waits <;> exact isActive_of_phase h
    exact same (by simp [enqueue]) (by simp [enqueue]) (by simp [enqueue])
      (refers_of_record (i := i) (by simp +contextual [enqueue])
        (by simp [enqueue, holds, active]))
  | @failed b i r life f wait attempt holds phase =>
    exact same (by simp) (by simp) (by simp) (refers_of_record (i := i) (by simp +contextual)
      (by simp [holds, isActive_of_phase phase]))
  | @deferred b x i r life own tel action wait attempt record holds phase accepted answer =>
    exact same (by simp) (by simp) (by simp) (refers_of_record (i := i) (by simp +contextual)
      (by simp [holds, isActive_of_phase phase]))
  | discard ends unheld down =>
    exact same (by simp [TableMoves.discard]) (by simp [TableMoves.discard])
      (by simp [TableMoves.discard]) (by simp [TableMoves.discard])
  | complete i x => exact complete_drainCounted i x h
  | @noted i r f holds =>
    exact same (by simp) (by simp) (by simp) (refers_of_record (i := i) (by simp +contextual)
      (by simp [holds]))
  | @collected i r x hold linger holds phase =>
    exact same (by simp) (by simp) (by simp) (refers_of_record (i := i) (by simp +contextual)
      (by simp [holds, isActive_of_isDone (isDone_of_phase phase)]))
  | @unclaimed i r holds done =>
    exact same (by simp) (by simp) (by simp) (refers_of_record (i := i) (by simp +contextual)
      (by simp [holds, isActive_of_isDone done]))
  | @freed i r stamp holds delivered =>
    exact same (by simp) (by simp) (by simp) (refers_of_record (i := i) (by simp +contextual)
      (by simp [holds, (idle_of_deliveryStamp delivered).1]))
  | @bank c role idle stays =>
    have zero : s.drainCount = 0 := Nat.eq_zero_of_not_pos fun hpos => idle (h.2.mpr hpos)
    have count : (writeOther s c role).activeIn s.live.other = s.activeIn s.live.other :=
      countRecords_congr fun j => by simp
    simpa [DrainCounted, zero, stays, count] using h.1
  | promote staged =>
    have count : s.promote.activeIn s.live = s.activeIn s.live := countRecords_congr fun j => by simp
    simp only [DrainCounted, State.promote, BankId.other_other] at count ⊢
    refine ⟨count.symm, ?_⟩
    split <;> simp <;> omega
  | cleared record line attn otherRole drainCount =>
    have zero : t.activeIn t.live.other = 0 := activeIn_eq_zero.mpr fun i r hr => by
      simp [record] at hr
    simp [DrainCounted, zero, otherRole, drainCount]

/-! ### The captured slot -/

theorem capturedBudget_of_entry {s : State} {r : Record} {e : DirEntry}
    (h : (s.bank r.bank).directory.get r.dirSlot = some e) : s.capturedBudget r = e.budget.val := by
  simp only [State.capturedBudget, h]

theorem capturedSlot_move {s t : State} (hd : DrainCounted s) (h : CapturedSlotKept s)
    (m : Move s t) : CapturedSlotKept t := by
  obtain ⟨i, d, e, tel, out, free, entry, -, -, -, rfl⟩ | none | c := m.carries
  · intro j q hq ha
    have bank : ∀ k, (enqueue (admitNext (s.setRecord i (some (s.newRecord d e tel out)))) e.branch
        i).bank k = s.bank k := by simp [enqueue]
    simp only [enqueue_record, admitNext_reads, setRecord_record] at hq
    split at hq
    · obtain rfl := Option.some.inj hq
      exact ⟨e, by rw [bank]; exact entry, rfl, rfl, le_rfl⟩
    · simpa only [bank] using h j q hq ha
  · intro j q hq; simp [none] at hq
  · intro j q hq ha
    obtain ⟨r, hr, i⟩ := c.record j q hq
    have active := i.active ha
    obtain ⟨e, he, hb, hk, hn⟩ := h j r hr active
    have bank : t.bank r.bank = s.bank r.bank := by
      obtain same | ⟨other, idle⟩ := c.bank r.bank
      · exact same
      · exact absurd (other.symm.trans (bank_eq_live hd idle hr active)) (BankId.other_ne _)
    refine ⟨e, by rw [i.bank, i.dirSlot, bank, he], hb.trans i.branch.symm, hk.trans i.kind.symm, ?_⟩
    obtain hle | heq := i.retries
    · exact hle.trans hn
    · rw [heq, capturedBudget_of_entry he]

/-- Settles O56: a bank that an active record refers to is not written, since the other bank is written
only while it does not drain, and then no active record refers to it (R82, R90). -/
theorem capturedSlotStaysValid : Obligations.CapturedSlotStaysValid := by
  intro s t hd hc h
  have kept : ∀ u v, DrainCounted u ∧ CapturedSlotKept u → Move u v →
      DrainCounted v ∧ CapturedSlotKept v := fun u v hu m =>
    ⟨drainCounted_move hu.1 m, capturedSlot_move hu.1 hu.2 m⟩
  exact (step_keep kept ⟨hd, hc⟩ h).2

/-! ### Lines that are down -/

theorem downLineEmpty_iff (s : State) : DownLineEmpty s ↔ ∀ b, (s.line b).state.isDown = true →
    (s.line b).broadcast = none ∧
      ∀ i r, s.record i = some r → r.isActive = true → r.branch ≠ b := by
  have count : ∀ b, s.activeCount b = 0 ↔
      ∀ i r, s.record i = some r → r.isActive = true → r.branch ≠ b := fun b => by
    rw [State.activeCount, countRecords_eq_zero]; simp
  simp only [DownLineEmpty, count, and_comm]

theorem enqueue_line (s : State) (b c : Branch) (i : SlotId) :
    (enqueue s b i).line c =
      if c = b then { s.line b with queue := (s.line b).queue ++ [i] } else s.line c := by
  simp [enqueue]

@[simp] theorem enqueue_state (s : State) (b c : Branch) (i : SlotId) :
    ((enqueue s b i).line c).state = (s.line c).state := by
  rw [enqueue_line]; split <;> simp_all

@[simp] theorem enqueue_broadcast (s : State) (b c : Branch) (i : SlotId) :
    ((enqueue s b i).line c).broadcast = (s.line c).broadcast := by
  rw [enqueue_line]; split <;> simp_all

theorem complete_isDown (s : State) (i : SlotId) (x : Result) (b : Branch) :
    ((s.complete i x).line b).state.isDown = (s.line b).state.isDown := by
  by_cases h : ∃ r, s.record i = some r ∧ r.isActive = true
  · obtain ⟨r, hr, ha⟩ := h
    rw [complete_line x hr ha]; split <;> simp
  · rw [complete_of_inactive x fun r hr => by simpa using fun ha => h ⟨r, hr, ha⟩]

/-- A line is down after a move only where it was, with its buffer as it was, or where it has no active
record. -/
theorem Move.down {s t : State} (m : Move s t) (b : Branch) (h : (t.line b).state.isDown = true) :
    (t.line b).broadcast = none ∧
        (∀ i r, s.record i = some r → r.isActive = true → r.branch ≠ b) ∨
      ((s.line b).state.isDown = true ∧ (t.line b).broadcast = (s.line b).broadcast) ∨
      ∀ i, t.record i = none ∧ (t.line b).broadcast = none := by
  have settled : ∀ {u : State} {c : Branch} {i : SlotId} {r : Option Record},
      (((u.settle c).setRecord i r).line b).state.isDown = true →
      (u.line b).state.isDown = true ∧
        (((u.settle c).setRecord i r).line b).broadcast = (u.line b).broadcast := by
    intro u c i r hu
    simp only [setRecord_reads, settle_line] at hu ⊢
    split at hu
    · cases hu
    · rename_i hc; rw [if_neg hc]; exact ⟨hu, rfl⟩
  have enqueued : ∀ {u : State} {c : Branch} {i : SlotId},
      ((enqueue u c i).line b).state.isDown = true → (u.line b).state.isDown = true ∧
        ((enqueue u c i).line b).broadcast = (u.line b).broadcast := by
    intro u c i hu
    rw [enqueue_state] at hu
    exact ⟨hu, enqueue_broadcast u c b i⟩
  cases m with
  | quiet q => exact .inr (.inl ((q.line b).down h))
  | cleared record line attn otherRole drainCount =>
    exact .inr (.inr fun i => ⟨record i, (line b).2.1⟩)
  | @take b' i r life idle queued holds phase =>
    rw [takeRecord_line holds] at h ⊢
    split at h
    · cases h
    · rename_i hb; rw [if_neg hb]; exact .inr (.inl ⟨h, rfl⟩)
  | @discard b' st bc ends unheld down =>
    simp only [TableMoves.discard, setLine_line] at h ⊢
    split at h
    · rename_i hb; subst hb; simp only [if_true]; exact .inl (down h)
    · rename_i hb; rw [if_neg hb]; exact .inr (.inl ⟨h, rfl⟩)
  | complete i x =>
    rw [complete_isDown] at h
    exact .inr (.inl ⟨h, complete_broadcast s i x b⟩)
  | failed f wait attempt holds phase => exact .inr (.inl (settled h))
  | deferred wait attempt record holds phase accepted answer => exact .inr (.inl (settled h))
  | opened free entry up single dest => exact .inr (.inl (enqueued h))
  | rejoin holds waits retries => exact .inr (.inl (enqueued h))
  | _ => exact .inr (.inl (by simpa using h))

theorem downLineEmpty_move {s t : State} (h : DownLineEmpty s) (m : Move s t) :
    DownLineEmpty t := by
  rw [downLineEmpty_iff] at h ⊢
  intro b hb
  obtain ⟨i, d, e, tel, out, free, -, up, -, -, rfl⟩ | none | c := m.carries
  · have down : (s.line b).state.isDown = true := by simpa using hb
    refine ⟨by simpa using (h b down).1, fun j q hq ha => ?_⟩
    simp only [enqueue_record, admitNext_reads, setRecord_record] at hq
    split at hq
    · obtain rfl := Option.some.inj hq
      rintro rfl
      simp [up] at down
    · exact (h b down).2 j q hq ha
  · refine ⟨?_, fun i r hr => by simp [none] at hr⟩
    obtain ⟨buffer, -⟩ | ⟨down, buffer⟩ | cleared := m.down b hb
    · exact buffer
    · exact buffer.trans (h b down).1
    · exact (cleared 0).2
  · have carried : (∀ i r, s.record i = some r → r.isActive = true → r.branch ≠ b) →
        ∀ i r, t.record i = some r → r.isActive = true → r.branch ≠ b := by
      intro none i q hq ha
      obtain ⟨r, hr, inh⟩ := c.record i q hq
      rw [inh.branch]
      exact none i r hr (inh.active ha)
    obtain ⟨buffer, idle⟩ | ⟨down, buffer⟩ | cleared := m.down b hb
    · exact ⟨buffer, carried idle⟩
    · exact ⟨buffer.trans (h b down).1, carried (h b down).2⟩
    · exact ⟨(cleared 0).2, fun i r hr => by simp [(cleared i).1] at hr⟩

/-- Settles O52: a line goes down with no active record (`Move.down`), and no record is admitted to a
line that is down (R28). -/
theorem downLinesStayEmpty : Obligations.DownLinesStayEmpty :=
  fun _ _ => step_keep fun _ _ => downLineEmpty_move

/-! ### ATTN -/

theorem someRecord_congr {s t : State} {p : Record → Bool}
    (h : ∀ j, (t.record j).any p = (s.record j).any p) : t.someRecord p = s.someRecord p := by
  simp only [State.someRecord, h]

theorem attention_of_same {s t : State} (h : AttentionFollowsDone s) (attn : t.attn = s.attn)
    (done : ∀ j, (t.record j).any Record.isDone = (s.record j).any Record.isDone) :
    AttentionFollowsDone t := by
  rw [AttentionFollowsDone, attn, someRecord_congr done]
  exact h

theorem done_of_record {s t : State} {i : SlotId} (others : ∀ j, j ≠ i → t.record j = s.record j)
    (here : (t.record i).any Record.isDone = (s.record i).any Record.isDone) (j : SlotId) :
    (t.record j).any Record.isDone = (s.record j).any Record.isDone := by
  by_cases hj : j = i
  · rw [hj, here]
  · rw [others j hj]

/-- ATTN after a record has left DONE (R26). -/
theorem releaseAttention_attn (s : State) :
    s.releaseAttention.attn = (s.attn && s.someRecord Record.isDone) := by
  simp only [State.releaseAttention]
  split <;> simp_all

/-- Where ATTN is asserted, its release leaves it asserted exactly while a record is DONE. -/
theorem releaseAttention_follows {s : State} (h : s.attn = true) :
    AttentionFollowsDone s.releaseAttention := by
  rw [AttentionFollowsDone, releaseAttention_attn, h]
  simp

theorem attn_of_done {s : State} {i : SlotId} {r : Record} (h : AttentionFollowsDone s)
    (hr : s.record i = some r) (hd : r.isDone = true) : s.attn = true :=
  h.trans ((someRecord_iff s _).mpr ⟨i, r, hr, hd⟩)

theorem complete_attention {s : State} (i : SlotId) (x : Result) (h : AttentionFollowsDone s) :
    AttentionFollowsDone (s.complete i x) := by
  by_cases hr : ∃ r, s.record i = some r ∧ r.isActive = true
  case neg => rwa [complete_of_inactive x fun r hi => by simpa using fun ha => hr ⟨r, hi, ha⟩]
  obtain ⟨r, hr, ha⟩ := hr
  have asserted : (s.complete i x).attn = true := by rw [complete_of_active x hr ha]; rfl
  have done : (s.complete i x).someRecord Record.isDone = true :=
    (someRecord_iff _ _).mpr ⟨i, r.completed x s.holdTime, by simp [complete_record, hr, ha], rfl⟩
  exact asserted.trans done.symm

theorem attention_move {s t : State} (h : AttentionFollowsDone s) (m : Move s t) :
    AttentionFollowsDone t := by
  have same := attention_of_same (t := t) h
  cases m with
  | quiet q => exact same q.attn fun j => by rw [q.record]
  | @take b i r life idle queued holds phase =>
    have record := takeRecord_onLine (b := b) holds phase
    exact same (by simp) (done_of_record (i := i) (by simp +contextual [record])
      (by simp [record, holds, isDone_of_isActive (isActive_of_phase phase)]))
  | @opened i d e tel out free entry up single dest =>
    exact same (by simp [enqueue]) (done_of_record (i := i) (by simp +contextual [enqueue])
      (by simp [enqueue, free]))
  | @rejoin i r life seq n holds waits retries =>
    have active : r.isActive = true := by
      obtain ⟨w, h | h⟩ := waits <;> exact isActive_of_phase h
    exact same (by simp [enqueue]) (done_of_record (i := i) (by simp +contextual [enqueue])
      (by simp [enqueue, holds, isDone_of_isActive active]))
  | @failed b i r life f wait attempt holds phase =>
    exact same (by simp) (done_of_record (i := i) (by simp +contextual)
      (by simp [holds, isDone_of_isActive (isActive_of_phase phase)]))
  | @deferred b x i r life own tel action wait attempt record holds phase accepted answer =>
    exact same (by simp) (done_of_record (i := i) (by simp +contextual)
      (by simp [holds, isDone_of_isActive (isActive_of_phase phase)]))
  | discard ends unheld down =>
    exact same (by simp [TableMoves.discard]) (by simp [TableMoves.discard])
  | complete i x => exact complete_attention i x h
  | @noted i r f holds =>
    exact same (by simp) (done_of_record (i := i) (by simp +contextual) (by simp [holds]))
  | collected linger holds phase =>
    exact releaseAttention_follows (by simpa using attn_of_done h holds (isDone_of_phase phase))
  | unclaimed holds done =>
    exact releaseAttention_follows (by simpa using attn_of_done h holds done)
  | @freed i r stamp holds delivered =>
    exact same (by simp) (done_of_record (i := i) (by simp +contextual)
      (by simp [holds, (idle_of_deliveryStamp delivered).2]))
  | bank c idle stays => exact same (by simp) (by simp)
  | promote staged => exact same (by simp) (by simp)
  | cleared record line attn otherRole drainCount =>
    have none : t.someRecord Record.isDone = false :=
      (someRecord_false_iff t _).mpr fun i r hr => by simp [record] at hr
    exact attn.trans none.symm

/-- Settles O47: a completion asserts ATTN, and a record that leaves DONE releases it when it was the
last (`releaseAttention_follows`). -/
theorem attentionStaysWithDone : Obligations.AttentionStaysWithDone :=
  fun _ _ => step_keep fun _ _ => attention_move

/-! ### The queues -/

/-- A slot's record is in the active state `st` on branch `b`. -/
def Stands (st : ActiveState) (b : Branch) (o : Option Record) : Prop :=
  ∃ r, o = some r ∧ r.activeState = some st ∧ r.branch = b

@[simp] theorem stands_none (st : ActiveState) (b : Branch) : ¬ Stands st b none :=
  fun ⟨_, h, _⟩ => by cases h

@[simp] theorem stands_some (st : ActiveState) (b : Branch) (r : Record) :
    Stands st b (some r) ↔ r.activeState = some st ∧ r.branch = b := by simp [Stands]

theorem queue_mem {s : State} (h : QueueHoldsQueued s) (b : Branch) (i : SlotId) :
    i ∈ (s.line b).queue ↔ Stands .queued b (s.record i) := (h b).2 i

/-- The queues stand, and the one record that changes is QUEUED after as before. -/
theorem queue_of_same {s t : State} (i : SlotId) (h : QueueHoldsQueued s)
    (queue : ∀ b, (t.line b).queue = (s.line b).queue)
    (others : ∀ j, j ≠ i → t.record j = s.record j)
    (here : ∀ b, Stands .queued b (t.record i) ↔ Stands .queued b (s.record i)) : QueueHoldsQueued t := by
  intro b
  rw [queue]
  refine ⟨(h b).1, fun j => (queue_mem h b j).trans ?_⟩
  by_cases hj : j = i
  · rw [hj]; exact (here b).symm
  · rw [← others j hj]; rfl

/-- A record that was not QUEUED joins the queue of its branch. -/
theorem queue_of_join {s t : State} {i : SlotId} {c : Branch} (h : QueueHoldsQueued s)
    (queue : ∀ b, (t.line b).queue = if b = c then (s.line c).queue ++ [i] else (s.line b).queue)
    (others : ∀ j, j ≠ i → t.record j = s.record j) (old : ∀ b, ¬ Stands .queued b (s.record i))
    (new : ∀ b, Stands .queued b (t.record i) ↔ b = c) : QueueHoldsQueued t := by
  have absent : ∀ b, i ∉ (s.line b).queue := fun b hi => old b ((queue_mem h b i).mp hi)
  intro b
  rw [queue]
  refine ⟨?_, fun j => ?_⟩
  · split
    · refine List.nodup_append.mpr ⟨(h c).1, List.nodup_singleton i, fun a ha b hb e => ?_⟩
      obtain rfl := List.mem_singleton.mp hb
      exact absent c (e ▸ ha)
    · exact (h b).1
  · change _ ↔ Stands .queued b (t.record j)
    by_cases hj : j = i
    · rw [hj, new]
      split
      · simp_all
      · simp_all
    · rw [others j hj, ← queue_mem h]
      split
      · rename_i hb; simp [hb, hj]
      · rfl

/-- A QUEUED record leaves its queue, and is QUEUED no more. -/
theorem queue_of_leave {s t : State} {i : SlotId} {c : Branch} (h : QueueHoldsQueued s)
    (queue : ∀ b, (t.line b).queue = if b = c then (s.line c).queue.erase i else (s.line b).queue)
    (others : ∀ j, j ≠ i → t.record j = s.record j)
    (old : ∀ b, Stands .queued b (s.record i) → b = c) (new : ∀ b, ¬ Stands .queued b (t.record i)) :
    QueueHoldsQueued t := by
  intro b
  rw [queue]
  refine ⟨?_, fun j => ?_⟩
  · split
    · exact (h c).1.erase i
    · exact (h b).1
  · change _ ↔ Stands .queued b (t.record j)
    by_cases hj : j = i
    · rw [hj, iff_false_right (new b)]
      split
      · exact (h c).1.not_mem_erase
      · rename_i hb; exact fun hi => hb (old b ((queue_mem h b i).mp hi))
    · rw [others j hj, ← queue_mem h]
      split
      · rename_i hb; rw [hb]; exact List.mem_erase_of_ne hj
      · rfl

theorem complete_queue {s : State} {i : SlotId} {r : Record} (x : Result)
    (hr : s.record i = some r) (ha : r.isActive = true) (b : Branch) :
    ((s.complete i x).line b).queue =
      if b = r.branch ∧ r.activeState = some .queued then (s.line b).queue.erase i
      else (s.line b).queue := by
  rw [complete_line x hr ha]
  by_cases hb : b = r.branch
  · simp only [hb, if_true, true_and, leftBy_queue]
  · simp [hb]

theorem complete_queueHolds {s : State} (i : SlotId) (x : Result) (h : QueueHoldsQueued s) :
    QueueHoldsQueued (s.complete i x) := by
  by_cases hr : ∃ r, s.record i = some r ∧ r.isActive = true
  case neg => rwa [complete_of_inactive x fun r hi => by simpa using fun ha => hr ⟨r, hi, ha⟩]
  obtain ⟨r, hr, ha⟩ := hr
  have queue := complete_queue x hr ha
  have others : ∀ j, j ≠ i → (s.complete i x).record j = s.record j := by
    simp +contextual [complete_record]
  have here : (s.complete i x).record i = some (r.completed x s.holdTime) := by
    simp [complete_record, hr, ha]
  by_cases hq : r.activeState = some .queued
  · refine queue_of_leave (c := r.branch) h (fun b => ?_) others ?_ ?_
    · rw [queue]; by_cases hb : b = r.branch <;> simp [hb, hq]
    · simp [hr, hq, eq_comm]
    · simp [here]
  · exact queue_of_same i h (by simp [queue, hq]) others (by simp [here, hr, hq])

theorem settled_queue {s : State} {i : SlotId} (q : Option Record) (b c : Branch) :
    (((s.settle b).setRecord i q).line c).queue = (s.line c).queue := by
  simp only [setRecord_reads, settle_line]; split <;> simp_all

theorem queueHolds_move {s t : State} (h : QueueHoldsQueued s) (m : Move s t) :
    QueueHoldsQueued t := by
  cases m with
  | quiet q =>
    exact queue_of_same 0 h (fun b => (q.line b).queue) (fun j _ => q.record j)
      fun b => by rw [q.record]
  | @take b i r life idle queued holds phase =>
    have record := takeRecord_onLine (b := b) holds phase
    have branch : r.branch = b := by
      simpa [holds, activeState_of_phase phase] using (queue_mem h b i).mp queued
    refine queue_of_leave (i := i) (c := b) h (fun c => ?_) (by simp +contextual [record]) ?_ ?_
    · rw [takeRecord_line holds]; split <;> rfl
    · simp [holds, branch, eq_comm]
    · simp [record]
  | @opened i d e tel out free entry up single dest =>
    refine queue_of_join (i := i) (c := e.branch) h (fun c => ?_) ?_ ?_ ?_
    · rw [enqueue_line]; split <;> simp
    · simp +contextual [enqueue]
    · simp [free]
    · simp [enqueue, eq_comm]
  | @rejoin i r life seq n holds waits retries =>
    have idle : r.activeState ≠ some .queued := by
      obtain ⟨w, h | h⟩ := waits <;> simp [activeState_of_phase h]
    refine queue_of_join (i := i) (c := r.branch) h (fun c => ?_) ?_ ?_ ?_
    · rw [enqueue_line]; split <;> simp
    · simp +contextual [enqueue]
    · simp [holds, idle]
    · simp [enqueue, eq_comm]
  | @failed b i r life f wait attempt holds phase =>
    exact queue_of_same i h (settled_queue _ b) (by simp +contextual)
      (by simp [holds, activeState_of_phase phase])
  | @deferred b x i r life own tel action wait attempt record holds phase accepted answer =>
    exact queue_of_same i h (settled_queue _ b) (by simp +contextual)
      (by simp [holds, activeState_of_phase phase])
  | @discard b st bc ends unheld down =>
    exact queue_of_same 0 h (fun c => by rw [discard_line]; split <;> simp_all)
      (by simp [TableMoves.discard]) (by simp [TableMoves.discard])
  | complete i x => exact complete_queueHolds i x h
  | @noted i r f holds =>
    exact queue_of_same i h (by simp) (by simp +contextual) (by simp [holds])
  | @collected i r x hold linger holds phase =>
    exact queue_of_same i h (by simp) (by simp +contextual)
      (by simp [holds, activeState_of_inactive (isActive_of_isDone (isDone_of_phase phase))])
  | @unclaimed i r holds done =>
    exact queue_of_same i h (by simp) (by simp +contextual)
      (by simp [holds, activeState_of_inactive (isActive_of_isDone done)])
  | @freed i r stamp holds delivered =>
    exact queue_of_same i h (by simp) (by simp +contextual)
      (by simp [holds, activeState_of_inactive (idle_of_deliveryStamp delivered).1])
  | bank c idle stays => exact queue_of_same 0 h (by simp) (by simp) (by simp)
  | promote staged => exact queue_of_same 0 h (by simp) (by simp) (by simp)
  | cleared record line attn otherRole drainCount =>
    intro b
    simp [(line b).1, record]

/-- Settles O50. -/
theorem queuesHoldTheQueued : Obligations.QueuesHoldTheQueued :=
  fun _ _ => step_keep fun _ _ => queueHolds_move

/-! ### The attempts -/

theorem attempt_iff {s : State} (h : OnLineIsAttempt s) (b : Branch) (i : SlotId) :
    LineState.record (s.line b).state = some i ↔ Stands .onLine b (s.record i) := h b i

/-- The attempts stand, and the one record that changes is ON_LINE after as before. -/
theorem onLine_of_same {s t : State} (i : SlotId) (h : OnLineIsAttempt s)
    (attempt : ∀ b, LineState.record (t.line b).state = LineState.record (s.line b).state)
    (others : ∀ j, j ≠ i → t.record j = s.record j)
    (here : ∀ b, Stands .onLine b (t.record i) ↔ Stands .onLine b (s.record i)) :
    OnLineIsAttempt t := by
  intro b j
  rw [attempt]
  refine (attempt_iff h b j).trans ?_
  by_cases hj : j = i
  · rw [hj]; exact (here b).symm
  · rw [← others j hj]; rfl

/-- A record becomes the attempt of a line that has none. -/
theorem onLine_of_begin {s t : State} {i : SlotId} {c : Branch} (h : OnLineIsAttempt s)
    (free : LineState.record (s.line c).state = none)
    (attempt : ∀ b, LineState.record (t.line b).state =
      if b = c then some i else LineState.record (s.line b).state)
    (others : ∀ j, j ≠ i → t.record j = s.record j) (old : ∀ b, ¬ Stands .onLine b (s.record i))
    (new : ∀ b, Stands .onLine b (t.record i) ↔ b = c) : OnLineIsAttempt t := by
  intro b j
  change _ ↔ Stands .onLine b (t.record j)
  rw [attempt]
  by_cases hj : j = i
  · subst hj
    rw [new]
    split
    · simp_all
    · rename_i hb; simpa [hb] using fun ha => old b ((attempt_iff h b j).mp ha)
  · rw [others j hj, ← attempt_iff h]
    split
    · rename_i hb; simp [hb, free, Ne.symm hj]
    · rfl

/-- The attempt of a record ends, and the record is ON_LINE no more. -/
theorem onLine_of_end {s t : State} {i : SlotId} {c : Branch} (h : OnLineIsAttempt s)
    (held : LineState.record (s.line c).state = some i)
    (attempt : ∀ b, LineState.record (t.line b).state =
      if b = c then none else LineState.record (s.line b).state)
    (others : ∀ j, j ≠ i → t.record j = s.record j)
    (new : ∀ b, ¬ Stands .onLine b (t.record i)) : OnLineIsAttempt t := by
  intro b j
  change _ ↔ Stands .onLine b (t.record j)
  rw [attempt]
  by_cases hj : j = i
  · subst hj
    rw [iff_false_right (new b)]
    split
    · simp
    · rename_i hb
      intro ha
      obtain ⟨r, hr, -, hrb⟩ := (attempt_iff h b j).mp ha
      obtain ⟨q, hq, -, hqc⟩ := (attempt_iff h c j).mp held
      obtain rfl := Option.some.inj (hr.symm.trans hq)
      exact hb (hrb.symm.trans hqc)
  · rw [others j hj, ← attempt_iff h]
    split
    · rename_i hb; simp [hb, held, Ne.symm hj]
    · rfl

theorem complete_onLine {s : State} (i : SlotId) (x : Result) (h : OnLineIsAttempt s) :
    OnLineIsAttempt (s.complete i x) := by
  by_cases hr : ∃ r, s.record i = some r ∧ r.isActive = true
  case neg => rwa [complete_of_inactive x fun r hi => by simpa using fun ha => hr ⟨r, hi, ha⟩]
  obtain ⟨r, hr, ha⟩ := hr
  have others : ∀ j, j ≠ i → (s.complete i x).record j = s.record j := by
    simp +contextual [complete_record]
  have here : (s.complete i x).record i = some (r.completed x s.holdTime) := by
    simp [complete_record, hr, ha]
  by_cases ho : r.activeState = some .onLine
  · have held : LineState.record (s.line r.branch).state = some i :=
      (attempt_iff h _ i).mpr ⟨r, hr, ho, rfl⟩
    refine onLine_of_end h held (fun b => ?_) others (by simp [here])
    rw [complete_line x hr ha]
    split
    · rename_i hb; simp [leftBy_state, ho, orphanedState_record, hb, held]
    · rfl
  · refine onLine_of_same i h (fun b => ?_) others (by simp [here, hr, ho])
    rw [complete_line x hr ha]
    split
    · simp [leftBy_state, ho]
    · rfl

theorem settled_attempt {s : State} {i : SlotId} (q : Option Record) (b c : Branch) :
    LineState.record (((s.settle b).setRecord i q).line c).state =
      if c = b then none else LineState.record (s.line c).state := by
  simp only [setRecord_reads, settle_line]; split <;> rfl

theorem onLine_move {s t : State} (hq : QueueHoldsQueued s) (h : OnLineIsAttempt s)
    (m : Move s t) : OnLineIsAttempt t := by
  cases m with
  | quiet q =>
    exact onLine_of_same 0 h (fun b => (q.line b).record) (fun j _ => q.record j)
      fun b => by rw [q.record]
  | @take b i r life idle queued holds phase =>
    have record := takeRecord_onLine (b := b) holds phase
    have branch : r.branch = b := by
      simpa [holds, activeState_of_phase phase] using (queue_mem hq b i).mp queued
    refine onLine_of_begin (i := i) (c := b) h (by rw [idle]; rfl) (fun c => ?_)
      (by simp +contextual [record]) ?_ ?_
    · rw [takeRecord_line holds]; split <;> rfl
    · simp [holds, activeState_of_phase phase]
    · simp [record, branch, eq_comm]
  | @opened i d e tel out free entry up single dest =>
    exact onLine_of_same i h (by simp) (by simp +contextual [enqueue]) (by simp [enqueue, free])
  | @rejoin i r life seq n holds waits retries =>
    have waiting : r.activeState ≠ some .onLine := by
      obtain ⟨w, h | h⟩ := waits <;> simp [activeState_of_phase h]
    exact onLine_of_same i h (by simp) (by simp +contextual [enqueue])
      (by simp [enqueue, holds, waiting])
  | @failed b i r life f wait attempt holds phase =>
    exact onLine_of_end h attempt (settled_attempt _ b) (by simp +contextual) (by simp)
  | @deferred b x i r life own tel action wait attempt record holds phase accepted answer =>
    have held : LineState.record (s.line b).state = some i := by
      rw [record_eq_bind, attempt]; exact record
    exact onLine_of_end h held (settled_attempt _ b) (by simp +contextual) (by simp)
  | @discard b st bc ends unheld down =>
    have none : LineState.record (s.line b).state = none := by
      by_contra hne
      obtain ⟨i, hi⟩ := Option.ne_none_iff_exists'.mp hne
      obtain ⟨r, hr, ho, hb⟩ := (attempt_iff h b i).mp hi
      exact unheld i r hi hr ho hb
    refine onLine_of_same 0 h (fun c => ?_) (by simp [TableMoves.discard])
      (by simp [TableMoves.discard])
    rw [discard_line]
    split
    · rename_i hc; rw [hc, none, record_eq_bind, ends]; rfl
    · rfl
  | complete i x => exact complete_onLine i x h
  | @noted i r f holds =>
    exact onLine_of_same i h (by simp) (by simp +contextual) (by simp [holds])
  | @collected i r x hold linger holds phase =>
    exact onLine_of_same i h (by simp) (by simp +contextual)
      (by simp [holds, activeState_of_inactive (isActive_of_isDone (isDone_of_phase phase))])
  | @unclaimed i r holds done =>
    exact onLine_of_same i h (by simp) (by simp +contextual)
      (by simp [holds, activeState_of_inactive (isActive_of_isDone done)])
  | @freed i r stamp holds delivered =>
    exact onLine_of_same i h (by simp) (by simp +contextual)
      (by simp [holds, activeState_of_inactive (idle_of_deliveryStamp delivered).1])
  | bank c idle stays => exact onLine_of_same 0 h (by simp) (by simp) (by simp)
  | promote staged => exact onLine_of_same 0 h (by simp) (by simp) (by simp)
  | cleared record line attn otherRole drainCount =>
    intro b
    simp [record_eq_bind, (line b).2.2, record]

/-! ### The fields of a record -/

/-- The fields of one record, each present exactly under its condition (R22). -/
structure Present (r : Record) : Prop where
  sent : (r.activeState = some .onLine ∨ ∃ w, r.activeState = some (.backoff w)) →
    r.branchSeq ≠ none
  unsent : ((∃ w, r.activeState = some (.deferred w)) ∨ r.isActive = false) → r.branchSeq = none
  collects : (∃ w, r.activeState = some (.deferred w)) → ∃ link, r.action = .collect link
  relay : ∀ link, r.action = .collect link → r.kind = .relay
  dest : r.kind = .relay → r.outbound.dest = r.target

theorem fieldsPresent_iff (s : State) :
    RecordFieldsPresent s ↔ ∀ i r, s.record i = some r → Present r :=
  ⟨fun h i r hr => let ⟨h1, h2, h3, h4, h5⟩ := h i r hr; ⟨h1, h2, h3, h4, h5⟩,
   fun h i r hr => let ⟨h1, h2, h3, h4, h5⟩ := h i r hr; ⟨h1, h2, h3, h4, h5⟩⟩

/-- The attempt of a record holds its branch sequence, action, kind and expected source (R106). -/
structure HeldBy (x : Exchange) (r : Record) : Prop where
  seq : r.branchSeq = some x.seq
  ask : r.action = .ask → x.sought = .ask r.kind r.outbound.dest
  collect : ∀ link, r.action = .collect link → x.sought = .collect r.kind link.address link.ticket

theorem attemptHolds_iff (s : State) :
    AttemptHoldsRecord s ↔ ∀ b x i r, LineState.exchange (s.line b).state = some x →
      x.record = some i → s.record i = some r → HeldBy x r :=
  ⟨fun h b x i r hx hi hr => let ⟨h1, h2, h3⟩ := h b x i r hx hi hr; ⟨h1, h2, h3⟩,
   fun h b x i r hx hi hr => let ⟨h1, h2, h3⟩ := h b x i r hx hi hr; ⟨h1, h2, h3⟩⟩

/-- An accepted HELD answers an ASK of a RELAY, and an accepted WAIT a COLLECT; the record is then in
DEFERRED with action COLLECT, which only a RELAY has (R37, R112). -/
theorem deferred_present {x : Exchange} {r : Record} {own : Octet} {t : Telegram} {action : Action}
    (life wait : Word) (h : Present r) (hx : HeldBy x r) (ha : x.judge own t = .accept)
    (hk : (t.kind = .held ∧ ∃ link, action = .collect link) ∨
      (t.kind = .wait ∧ action = r.action)) :
    Present (deferredRecord r life wait action) := by
  have collects : (∃ link, action = .collect link) ∧ r.kind = .relay := by
    obtain ⟨hk, hl⟩ | ⟨hk, rfl⟩ := hk
    · refine ⟨hl, ?_⟩
      obtain h' | h' | ⟨-, source, hs⟩ | ⟨h', -⟩ := judge_accept ha
      · simp [hk] at h'
      · simp [hk] at h'
      · cases hact : r.action with
        | ask =>
          have := hs.symm.trans (hx.ask hact)
          simp only [Sought.ask.injEq] at this
          exact this.1.symm
        | collect link => exact h.relay link hact
      · simp [hk] at h'
    · obtain h' | h' | ⟨h', -⟩ | ⟨-, k, source, ticket, hs⟩ := judge_accept ha
      · simp [hk] at h'
      · simp [hk] at h'
      · simp [hk] at h'
      · cases hact : r.action with
        | ask => exact absurd (hs.symm.trans (hx.ask hact)) (by simp)
        | collect link => exact ⟨⟨link, rfl⟩, h.relay link hact⟩
  exact ⟨by simp, by simp, by simpa using collects.1, by simp [collects.2], by simpa using h.dest⟩

theorem completed_present {r : Record} (x : Result) (hold : Word) (h : Present r) :
    Present (r.completed x hold) :=
  ⟨by simp, by simp, by simp, by simpa using h.relay, by simpa using h.dest⟩

/-- The one record that changes has its fields as R22 says. -/
theorem present_of_record {s t : State} (i : SlotId) (h : ∀ j r, s.record j = some r → Present r)
    (others : ∀ j, j ≠ i → t.record j = s.record j)
    (here : ∀ r, t.record i = some r → Present r) (j : SlotId) (r : Record)
    (hr : t.record j = some r) : Present r := by
  by_cases hj : j = i
  · exact here r (hj ▸ hr)
  · exact h j r (others j hj ▸ hr)

theorem present_move {s t : State} (h : ∀ j r, s.record j = some r → Present r)
    (ha : AttemptHoldsRecord s) (m : Move s t) : ∀ j r, t.record j = some r → Present r := by
  cases m with
  | quiet q => intro j r hr; exact h j r ((q.record j).symm.trans hr)
  | @take b i r life idle queued holds phase =>
    have record := takeRecord_onLine (b := b) holds phase
    have old := h i r holds
    refine present_of_record i h (by simp +contextual [record]) ?_
    simp only [record, if_true, Option.some.injEq, forall_eq']
    exact ⟨by simp, by simp, by simp, by simpa using old.relay, by simpa using old.dest⟩
  | @opened i d e tel out free entry up single dest =>
    refine present_of_record i h (by simp +contextual [enqueue]) ?_
    simp only [enqueue_record, admitNext_reads, setRecord_record, if_true, Option.some.injEq,
      forall_eq']
    exact ⟨by simp, by simp, by simp, by simp, by simpa using dest⟩
  | @rejoin i r life seq n holds waits retries =>
    have old := h i r holds
    refine present_of_record i h (by simp +contextual [enqueue]) ?_
    simp only [enqueue_record, setRecord_record, if_true, Option.some.injEq, forall_eq']
    exact ⟨by simp, by simp, by simp, by simpa using old.relay, by simpa using old.dest⟩
  | @failed b i r life f wait attempt holds phase =>
    have old := h i r holds
    refine present_of_record i h (by simp +contextual) ?_
    simp only [setRecord_record, if_true, Option.some.injEq, forall_eq']
    exact ⟨fun _ => by simpa using old.sent (.inl (activeState_of_phase phase)), by simp, by simp,
      by simpa using old.relay, by simpa using old.dest⟩
  | @deferred b x i r life own tel action wait attempt record holds phase accepted answer =>
    refine present_of_record i h (by simp +contextual) ?_
    simp only [setRecord_record, if_true, Option.some.injEq, forall_eq']
    exact deferred_present life wait (h i r holds)
      ((attemptHolds_iff s).mp ha b x i r attempt record holds) accepted answer
  | discard ends unheld down => simpa [TableMoves.discard] using h
  | complete i x =>
    refine present_of_record i h (by simp +contextual [complete_record]) fun q hq => ?_
    rw [complete_record, if_pos rfl] at hq
    obtain ⟨r, hr, rfl⟩ := Option.map_eq_some_iff.mp hq
    split
    · exact completed_present x _ (h i r hr)
    · exact h i r hr
  | @noted i r f holds =>
    have old := h i r holds
    refine present_of_record i h (by simp +contextual) ?_
    simp only [setRecord_record, if_true, Option.some.injEq, forall_eq']
    exact ⟨by simpa using old.sent, by simpa using old.unsent, by simpa using old.collects,
      by simpa using old.relay, by simpa using old.dest⟩
  | @collected i r x hold linger holds phase =>
    have old := h i r holds
    have idle := isActive_of_isDone (isDone_of_phase phase)
    refine present_of_record i h (by simp +contextual) ?_
    simp only [releaseAttention_reads, deliverNext_reads, setRecord_record, if_true,
      Option.some.injEq, forall_eq']
    exact ⟨by simp, by simpa using old.unsent (.inr idle), by simp, by simpa using old.relay,
      by simpa using old.dest⟩
  | @unclaimed i r holds done =>
    exact present_of_record i h (by simp +contextual) (by simp)
  | @freed i r stamp holds delivered =>
    exact present_of_record i h (by simp +contextual) (by simp)
  | bank c idle stays => simpa using h
  | promote staged => simpa using h
  | cleared record line attn otherRole drainCount => simp [record]

/-! ### The attempt of a record holds its fields -/

/-- No attempt begins, and the one record that changes is no attempt, or keeps the fields that its
attempt holds. -/
theorem heldBy_of_record {s t : State} (i : SlotId)
    (h : ∀ b x j r, LineState.exchange (s.line b).state = some x → x.record = some j →
      s.record j = some r → HeldBy x r)
    (hl : OnLineIsAttempt t)
    (attempt : ∀ b x, LineState.exchange (t.line b).state = some x → x.record ≠ none →
      LineState.exchange (s.line b).state = some x)
    (others : ∀ j, j ≠ i → t.record j = s.record j)
    (here : ∀ q, t.record i = some q → q.activeState = some .onLine →
      ∃ r, s.record i = some r ∧ ∀ x, HeldBy x r → HeldBy x q)
    (b : Branch) (x : Exchange) (j : SlotId) (q : Record)
    (hx : LineState.exchange (t.line b).state = some x) (hj : x.record = some j)
    (hq : t.record j = some q) : HeldBy x q := by
  have hs := attempt b x hx (by simp [hj])
  by_cases hi : j = i
  · subst hi
    have held : LineState.record (t.line b).state = some j := by rw [record_eq_bind, hx]; exact hj
    obtain ⟨p, hp, ho, -⟩ := (hl b j).mp held
    obtain rfl := Option.some.inj (hq.symm.trans hp)
    obtain ⟨r, hr, keep⟩ := here q hq ho
    exact keep x (h b x j r hs hj hr)
  · exact h b x j q hs hj (others j hi ▸ hq)

theorem takeRecord_heldBy {r : Record} {life : Word} {i : SlotId} (seq : Octet) :
    HeldBy { record := some i, seq := seq, sought := soughtBy r } (onLineRecord r life seq) :=
  ⟨rfl, fun h => by simp only [onLineRecord_fields] at h; simp [soughtBy, h],
   fun link h => by simp only [onLineRecord_fields] at h; simp [soughtBy, h]⟩

theorem orphanedState_exchange {i : SlotId} {st : LineState} {x : Exchange}
    (h : LineState.exchange (orphanedState i st) = some x) (hx : x.record ≠ none) :
    LineState.exchange st = some x := by
  have same : ∀ y : Exchange, (y.orphaned i).record ≠ none → y.orphaned i = y := by
    intro y hy
    simp only [Exchange.orphaned] at hy ⊢
    split <;> simp_all
  cases st with
  | sending a =>
    cases a with
    | exchange y =>
      obtain rfl := Option.some.inj h
      simp only [LineState.exchange, same y hx]
    | broadcast seq => cases h
  | listening y w =>
    obtain rfl := Option.some.inj h
    simp only [LineState.exchange, same y hx]
  | _ => cases h

theorem complete_exchange {s : State} {i : SlotId} {x : Result} {b : Branch} {y : Exchange}
    (h : LineState.exchange ((s.complete i x).line b).state = some y) (hy : y.record ≠ none) :
    LineState.exchange (s.line b).state = some y := by
  by_cases hr : ∃ r, s.record i = some r ∧ r.isActive = true
  · obtain ⟨r, hr, ha⟩ := hr
    rw [complete_line x hr ha] at h
    split at h
    · rw [leftBy_state] at h
      split at h
      · exact orphanedState_exchange h hy
      · exact h
    · exact h
  · rwa [complete_of_inactive x fun r hi => by simpa using fun ha => hr ⟨r, hi, ha⟩] at h

theorem settled_exchange {s : State} {i : SlotId} {q : Option Record} {b c : Branch} {x : Exchange}
    (h : LineState.exchange (((s.settle b).setRecord i q).line c).state = some x) :
    LineState.exchange (s.line c).state = some x := by
  simp only [setRecord_reads, settle_line] at h
  split at h
  · cases h
  · exact h

theorem heldBy_move {s t : State}
    (h : ∀ b x j r, LineState.exchange (s.line b).state = some x → x.record = some j →
      s.record j = some r → HeldBy x r)
    (hl : OnLineIsAttempt t) (m : Move s t) :
    ∀ b x j r, LineState.exchange (t.line b).state = some x → x.record = some j →
      t.record j = some r → HeldBy x r := by
  have of_record := fun i => heldBy_of_record (t := t) i h hl
  cases m with
  | quiet q =>
    exact of_record 0 (fun b x hx _ => (q.line b).exchange x hx) (fun j _ => q.record j)
      fun r hr _ => ⟨r, (q.record 0).symm.trans hr, fun _ => id⟩
  | @take b i r life idle queued holds phase =>
    have record := takeRecord_onLine (b := b) holds phase
    intro c x j q hx hj hq
    have held : LineState.record ((s.takeRecord b i).line c).state = some j := by
      rw [record_eq_bind, hx]; exact hj
    rw [takeRecord_line holds] at hx
    split at hx
    · obtain rfl := Option.some.inj hx
      obtain rfl := Option.some.inj hj
      rw [record, if_pos rfl] at hq
      obtain rfl := Option.some.inj hq
      exact takeRecord_heldBy _
    · rename_i hc
      have other : j ≠ i := by
        rintro rfl
        have taken : LineState.record ((s.takeRecord b j).line b).state = some j := by
          rw [takeRecord_line holds, if_pos rfl]; rfl
        obtain ⟨p, hp, -, hpb⟩ := (hl b j).mp taken
        obtain ⟨p', hp', -, hpc⟩ := (hl c j).mp held
        obtain rfl := Option.some.inj (hp.symm.trans hp')
        exact hc (hpc.symm.trans hpb)
      rw [record, if_neg other] at hq
      exact h c x j q hx hj hq
  | @opened i d e tel out free entry up single dest =>
    exact of_record i (fun _ _ hx _ => by simpa using hx) (by simp +contextual [enqueue])
      (by simp [enqueue])
  | @rejoin i r life seq n holds waits retries =>
    exact of_record i (fun _ _ hx _ => by simpa using hx) (by simp +contextual [enqueue])
      (by simp [enqueue])
  | @failed b i r life f wait attempt holds phase =>
    exact of_record i (fun _ _ hx _ => settled_exchange hx) (by simp +contextual) (by simp)
  | @deferred b x i r life own tel action wait attempt record holds phase accepted answer =>
    exact of_record i (fun _ _ hx _ => settled_exchange hx) (by simp +contextual) (by simp)
  | @discard b st bc ends unheld down =>
    refine of_record 0 (fun c x hx _ => ?_) (by simp [TableMoves.discard])
      (by simp +contextual [TableMoves.discard])
    rw [discard_line] at hx
    split at hx
    · simp [ends] at hx
    · exact hx
  | complete i x =>
    refine of_record i (fun b y hy hn => complete_exchange hy hn)
      (by simp +contextual [complete_record]) fun q hq ho => ?_
    exact absurd (isActive_of_activeState ho) (by simp [complete_inactive hq])
  | @noted i r f holds =>
    refine of_record i (fun _ _ hx _ => by simpa using hx) (by simp +contextual)
      fun q hq _ => ⟨r, holds, fun x hx => ?_⟩
    obtain rfl : notedRecord r f = q := by simpa using hq
    exact ⟨hx.seq, hx.ask, hx.collect⟩
  | @collected i r x hold linger holds phase =>
    exact of_record i (fun _ _ hx _ => by simpa using hx) (by simp +contextual) (by simp)
  | @unclaimed i r holds done =>
    exact of_record i (fun _ _ hx _ => by simpa using hx) (by simp +contextual) (by simp)
  | @freed i r stamp holds delivered =>
    exact of_record i (fun _ _ hx _ => by simpa using hx) (by simp +contextual) (by simp)
  | bank c idle stays =>
    exact of_record 0 (fun _ _ hx _ => by simpa using hx) (by simp) (by simp +contextual)
  | promote staged =>
    exact of_record 0 (fun _ _ hx _ => by simpa using hx) (by simp) (by simp +contextual)
  | cleared record line attn otherRole drainCount => simp [record]

/-- The invariants of the queues and the attempts together. -/
structure AttemptsSound (s : State) : Prop where
  queue : QueueHoldsQueued s
  attempt : OnLineIsAttempt s
  fields : RecordFieldsPresent s
  held : AttemptHoldsRecord s

theorem attemptsSound_move {s t : State} (h : AttemptsSound s) (m : Move s t) : AttemptsSound t where
  queue := queueHolds_move h.queue m
  attempt := onLine_move h.queue h.attempt m
  fields := (fieldsPresent_iff t).mpr (present_move ((fieldsPresent_iff s).mp h.fields) h.held m)
  held := (attemptHolds_iff t).mpr (heldBy_move ((attemptHolds_iff s).mp h.held)
    (onLine_move h.queue h.attempt m) m)

/-- Settles O51: the invariants of the queues, the attempts and the fields hold together. -/
theorem onLineStaysTheAttempt : Obligations.OnLineStaysTheAttempt := by
  refine ⟨fun s t hq ho h => ?_, fun s t hq ho hf h => ?_⟩
  · have kept : ∀ u v, QueueHoldsQueued u ∧ OnLineIsAttempt u → Move u v →
        QueueHoldsQueued v ∧ OnLineIsAttempt v := fun u v hu m =>
      ⟨queueHolds_move hu.1 m, onLine_move hu.1 hu.2 m⟩
    exact (step_keep kept ⟨hq, ho⟩ h).2
  · have sound := step_keep (fun _ _ => attemptsSound_move) ⟨hq, ho, hf.1, hf.2⟩ h
    exact ⟨sound.fields, sound.held⟩

end Sys2Proof.TableMoves

/-! SUPPORT. Tickets and collection: a quoted ticket names the record that it quotes (R20), and what a COLLECT
(R45, R46) and a CANCEL (R42) of it do. -/

namespace Sys2Proof.Tickets

-- Theorems elaborated side by side each hold a thread; one after another the whole text fits in memory.
set_option Elab.async false

open Sys2Proof.Machine Sys2Proof.Safety Sys2Proof.Laws Sys2Proof.TableMoves

/-! ### Tickets -/

/-- A ticket is issue × 16 + slot (R20). -/
theorem ticketOf_toNat (n : BitVec 4) (i : SlotId) : (ticketOf n i).toNat = n.toNat * 16 + i.val := by
  have hi : (BitVec.ofNat 4 i.val).toNat = i.val := Nat.mod_eq_of_lt i.isLt
  rw [ticketOf, BitVec.toNat_append, hi, ← Nat.shiftLeft_add_eq_or_of_lt i.isLt, Nat.shiftLeft_eq]

theorem ticketSlot_ticketOf (n : BitVec 4) (i : SlotId) : ticketSlot (ticketOf n i) = i := by
  have := i.isLt
  exact Fin.ext (by simp only [ticketSlot, ticketOf_toNat]; omega)

theorem ticketIssue_ticketOf (n : BitVec 4) (i : SlotId) : ticketIssue (ticketOf n i) = n := by
  have := i.isLt
  exact BitVec.eq_of_toNat_eq (by rw [ticketIssue_toNat, ticketOf_toNat]; omega)

/-- A quoted ticket matches exactly the record that it quotes (R45). -/
theorem matchTicket_iff (s : State) (q source opening : Octet) (i : SlotId) (r : Record) :
    s.matchTicket q source opening = some (i, r) ↔ Quotes s q source opening i r := by
  have issue : s.issue i = ticketIssue q ↔ (s.issue i).toNat = q.toNat / 16 := by
    rw [← ticketIssue_toNat, BitVec.toNat_inj]
  have slot : i.val = q.toNat % 16 ↔ ticketSlot q = i := by
    rw [Fin.ext_iff]; exact eq_comm
  rw [Quotes, slot, ← issue]
  constructor
  · intro h
    cases hr : s.record (ticketSlot q) with
    | none => simp [State.matchTicket, hr] at h
    | some q' =>
      simp only [State.matchTicket, hr, Option.ite_none_right_eq_some, Option.some.injEq, Prod.mk.injEq] at h
      obtain ⟨hm, rfl, rfl⟩ := h
      exact ⟨rfl, hr, hm⟩
  · rintro ⟨rfl, hr, hm⟩
    simp [State.matchTicket, hr, hm]

theorem matchTicket_eq_none {s : State} {q source opening : Octet}
    (h : ∀ i r, ¬ Quotes s q source opening i r) : s.matchTicket q source opening = none :=
  Option.eq_none_iff_forall_ne_some.mpr fun ⟨i, r⟩ hm => h i r ((matchTicket_iff s _ _ _ i r).mp hm)

/-- Settles O46: the ticket's two halves as numbers below 16. -/
theorem ticketsNameSlotAndIssue : Obligations.TicketsNameSlotAndIssue := by
  refine ⟨fun n i => ⟨ticketOf_toNat n i, ticketSlot_ticketOf n i, ticketIssue_ticketOf n i⟩,
    fun q => ⟨rfl, ticketIssue_toNat q⟩, fun s i j h => ?_, matchTicket_iff⟩
  calc i = ticketSlot (s.ticket i) := (ticketSlot_ticketOf _ i).symm
    _ = ticketSlot (s.ticket j) := by rw [h]
    _ = j := ticketSlot_ticketOf _ j

/-! ### A COLLECT to the own address -/

/-- The COLLECT of the command. -/
def collectOf (s : State) (source seq ticket opening : Octet) : Telegram :=
  { dest := s.ownAddress, source := source, kind := .collect, seq := seq, code := ticket,
    body := [opening] }

/-- A COLLECT that the trunk takes is served from the exchange table. -/
theorem collect_taken {s : State} {source seq ticket opening : Octet} (h : ManagementReady s)
    (hs : stationAddress source = true) :
    exec (.collect source seq ticket opening) s =
      .next (s.collectFor (collectOf s source seq ticket opening)) := by
  have hd : s.ownAddress.toNat ≤ 250 := by
    have := h.2; simp [stationAddress] at this; omega
  have hv : telegramValid (collectOf s source seq ticket opening) = true := by
    simp [telegramValid, collectOf, kindPermits, hd, hs]
  have served : s.classify (collectOf s source seq ticket opening) = .collection := by
    simp [State.classify, collectOf]
  calc exec (.collect source seq ticket opening) s
      = takeOnTrunk (collectOf s source seq ticket opening) s := rfl
    _ = .next (s.collectFor (collectOf s source seq ticket opening)) := by
      rw [takeOnTrunk_ready h.1 hv, served]; rfl

theorem collectFor_unmatched {s : State} {source seq ticket opening : Octet}
    (h : ∀ i r, ¬ Quotes s ticket source opening i r) :
    s.collectFor (collectOf s source seq ticket opening) =
      answering s (ownAnswer s source seq .fault 0x06 []) := by
  have hm : s.matchTicket ticket source opening = none := matchTicket_eq_none h
  simp only [State.collectFor, collectOf, List.head?_cons, Option.bind_some, hm]
  rfl

section Matched

variable {s : State} {source seq ticket opening : Octet} {i : SlotId} {r : Record} {result : Result}

theorem collectFor_active {st : ActiveState} {life : Word} (h : Quotes s ticket source opening i r)
    (hp : r.phase = .active st life) :
    s.collectFor (collectOf s source seq ticket opening) =
      answering s (ownAnswer s source seq .wait ticket []) := by
  have hm := (matchTicket_iff s _ _ _ i r).mpr h
  simp only [State.collectFor, collectOf, List.head?_cons, Option.bind_some, hm, hp]
  rfl

/-- The record of a result delivered enters DELIVERED, and ATTN follows (R46, R26). -/
theorem collectFor_done {hold : Word} (h : Quotes s ticket source opening i r)
    (hp : r.phase = .done result hold) :
    s.collectFor (collectOf s source seq ticket opening) =
      (deliverNext ((s.placeAnswer (resultAnswer s.ownAddress (collectOf s source seq ticket opening) r
        result)).setRecord i (some (deliveredRecord r result s.lingerTime
          s.nextDelivery)))).releaseAttention.countTrunk .collects := by
  have hm := (matchTicket_iff s _ _ _ i r).mpr h
  simp only [State.collectFor, collectOf, List.head?_cons, Option.bind_some, hm, hp]
  rfl

theorem collectFor_delivered {linger : Word} {stamp : Nat} (h : Quotes s ticket source opening i r)
    (hp : r.phase = .delivered result linger stamp) :
    s.collectFor (collectOf s source seq ticket opening) =
      (answering s (resultAnswer s.ownAddress (collectOf s source seq ticket opening) r
        result)).countTrunk .collects := by
  have hm := (matchTicket_iff s _ _ _ i r).mpr h
  simp only [State.collectFor, collectOf, List.head?_cons, Option.bind_some, hm, hp]
  rfl

end Matched

/-- Settles O16: the two matches that deliver no result. -/
theorem collectUnmatchedOrActive : Obligations.CollectUnmatchedOrActive := by
  intro s source seq ticket opening hready hs
  refine ⟨fun h => ?_, fun i r h ha => ?_⟩
  · rw [collect_taken hready hs, collectFor_unmatched h]
  · obtain ⟨st, life, hp⟩ := (isActive_iff r).mp ha
    rw [collect_taken hready hs, collectFor_active h hp]

/-- ATTN where the record of slot `i` has left DONE (R26). -/
theorem releaseAttention_left {s t : State} {i : SlotId} (others : ∀ j, j ≠ i → t.record j = s.record j)
    (left : (t.record i).any Record.isDone = false) :
    t.releaseAttention = { t with
      attn := t.attn && (List.finRange 16).any fun j => j != i && (s.record j).any Record.isDone } := by
  have remain : t.someRecord Record.isDone =
      (List.finRange 16).any fun j => j != i && (s.record j).any Record.isDone := by
    refine congrArg (List.any _) (funext fun j => ?_)
    by_cases hj : j = i
    · subst hj; simp [left]
    · simp [others j hj, hj]
  rw [← remain, State.releaseAttention]
  cases t.someRecord Record.isDone <;> simp

/-- Settles O17: the first collection of a result and a repeated one. -/
theorem collectDeliversResult : Obligations.CollectDeliversResult := by
  intro s source seq ticket opening i r result hready hs h answer
  have carried : resultAnswer s.ownAddress (collectOf s source seq ticket opening) r result = answer := by
    cases result <;> rfl
  refine ⟨fun hold hp => ?_, fun linger stamp hp => ?_⟩
  · rw [collect_taken hready hs, collectFor_done h hp, carried, releaseAttention_left (s := s) (i := i)
      (fun j hj => by simp [hj]) (by simp)]
    rfl
  · rw [collect_taken hready hs, collectFor_delivered h hp, carried]

/-! ### CANCEL -/

/-- The answer of a management operation, and the count of its refusal (R145, R149). -/
theorem manage_cancel (s : State) (source seq ticket opening : Octet) :
    s.manage (ownRequest s source seq 0x8B [ticket, opening]) =
      (opCancel s source [ticket, opening]).2.answerReply (ownRequest s source seq 0x8B [ticket, opening])
        (opCancel s source [ticket, opening]).1 := rfl

/-- Settles O27: what `opCancel` answers for each match of the ticket. -/
theorem cancelCompletesActiveRecord : Obligations.CancelCompletesActiveRecord := by
  intro s source seq ticket opening hready hs
  have taken : exec (.cancel source seq [ticket, opening]) s =
      .next (s.manage (ownRequest s source seq 0x8B [ticket, opening])) :=
    takeOnTrunk_own hready hs rfl
  rw [taken, manage_cancel]
  refine ⟨fun h => ?_, fun i r h => ?_⟩
  · have none : opCancel s source [ticket, opening] = (.fault .noTicket none, s) := by
      simp only [opCancel, matchTicket_eq_none h]
    rw [none]; rfl
  have hm := (matchTicket_iff s _ _ _ i r).mpr h
  obtain ⟨-, hr, -⟩ := h
  refine ⟨fun ha => ?_, fun ha => ?_⟩
  · have stands : opCancel s source [ticket, opening] = (.ans [1], s) := by
      simp [opCancel, hm, ha]
    rw [stands]; rfl
  · have early : opCancel s source [ticket, opening] =
        (.ans [0], s.completeEarly i (.fault 0x0D none)) := by
      simp [opCancel, hm, ha, Reason.octet]
    have own : (s.completeEarly i (.fault 0x0D none)).ownAddress = s.ownAddress := by simp
    have effect : s.completeEarly i (.fault 0x0D none) =
        if waitedOffLine r then (s.complete i (.fault 0x0D none)).look r.branch
        else s.complete i (.fault 0x0D none) := by simp only [State.completeEarly, hr]
    rw [early, State.answerReply, own, effect]; rfl

end Sys2Proof.Tickets

/-! SUPPORT. The reading of a head's request through its directory slot and its profile (R30, R31, R57 to R60,
R67 to R72). -/

namespace Sys2Proof.RequestReading

-- Theorems elaborated side by side each hold a thread; one after another the whole text fits in memory.
set_option Elab.async false

open Sys2Proof.Machine Sys2Proof.Safety Sys2Proof.Laws

/-! ### The class of a request -/

/-- The Code that a request is forwarded with (R57, R58, R67). -/
def forwardedCode (p : Profile) (k : StationKind) (code : Octet) : Octet :=
  match k with
  | .leaf => (p.opEntry code).code
  | .relay => code

section Class

variable {p : Profile} {k : StationKind} {code : Octet} {c : OpClass}

/-- A field operation code has the class of its entry, unless it is refused. -/
theorem requestClass_field (h : code.toNat ≤ 0x1F) :
    requestClass p k code =
      if (p.opEntry code).cls = .refuse then none
      else some ((p.opEntry code).cls, forwardedCode p k code) := by
  simp only [requestClass, fieldCode, h, decide_true, if_true]
  cases k <;> cases (p.opEntry code).cls <;> rfl

/-- A code beyond the field operations is a RELAY's alone. -/
theorem requestClass_other (h : ¬ code.toNat ≤ 0x1F) :
    requestClass p k code =
      if k = .relay ∧ 0x80 ≤ code.toNat ∧ code.toNat ≤ 0x8F then some (.control, code) else none := by
  have cond : (within 0x80 0x8F code.toNat && k == .relay) = true ↔
      k = .relay ∧ 0x80 ≤ code.toNat ∧ code.toNat ≤ 0x8F := by simp [within]; tauto
  simp only [requestClass, fieldCode, h, decide_false, Bool.false_eq_true, if_false, cond]

theorem hasClass_not_refuse (h : HasClass p k code c) : c ≠ .refuse := by
  obtain ⟨-, -, hc⟩ | ⟨-, -, -, rfl⟩ := h
  · exact hc
  · decide

theorem requestClass_of_hasClass (h : HasClass p k code c) :
    requestClass p k code = some (c, forwardedCode p k code) := by
  obtain ⟨hf, rfl, hc⟩ | ⟨rfl, low, high, rfl⟩ := h
  · exact (requestClass_field hf).trans (if_neg hc)
  · rw [requestClass_other (by omega), if_pos ⟨rfl, low, high⟩]; rfl

theorem requestClass_eq_none (h : ∀ c, ¬ HasClass p k code c) : requestClass p k code = none := by
  by_cases hf : code.toNat ≤ 0x1F
  · rw [requestClass_field hf, if_pos]
    by_contra hc
    exact h _ (.inl ⟨hf, rfl, hc⟩)
  · rw [requestClass_other hf, if_neg]
    rintro ⟨hk, low, high⟩
    exact h .control (.inr ⟨hk, low, high, rfl⟩)

theorem denies_iff (a : Access) (c : OpClass) : Denies a c ↔ a.admits c = false := by
  cases a <;> simp [Denies, Access.admits]

end Class

/-! ### The Body of a request -/

theorem wordOctets_wordOf (high low : Octet) : wordOctets (wordOf high low) = [high, low] := by
  simp [wordOctets]

/-- The register of a request's Body (R31). -/
def headRegister (body : List Octet) : Word := wordOf (body.getD 0 0) (body.getD 1 0)

section Body

variable {p : Profile} {k : StationKind} {c : OpClass} {body : List Octet}

theorem forwardBody_control (h : body.length ≤ 48) : forwardBody p k .control body = some body :=
  if_pos h

/-- A read or a write of the shape of its class is forwarded with its register translated (R71). -/
theorem forwardBody_register (hr : c ≠ .refuse) (hc : c ≠ .control) (h : ShapeFits c body) :
    forwardBody p k c body =
      (forwardRegister p k (headRegister body)).map fun r => wordOctets r ++ body.drop 2 := by
  obtain ⟨read, write, -⟩ := h
  cases c with
  | refuse => exact absurd rfl hr
  | control => exact absurd rfl hc
  | read =>
    obtain ⟨hl, hn⟩ := read rfl
    match body, hl with
    | [high, low, count], _ => exact if_pos hn
  | write =>
    obtain ⟨hl, hm⟩ := write rfl
    match body, hl with
    | high :: low :: first :: rest, _ =>
      have : rest.length ≤ 45 := by simp only [List.length_cons] at hm; omega
      exact if_pos this

/-- A Body of another shape is refused (R31). -/
theorem forwardBody_misshapen (hr : c ≠ .refuse) (h : ¬ ShapeFits c body) :
    forwardBody p k c body = none := by
  cases c with
  | refuse => exact absurd rfl hr
  | control =>
    have hl : ¬ body.length ≤ 48 := fun hl => h ⟨nofun, nofun, fun _ => hl⟩
    exact if_neg hl
  | read =>
    have hs : ¬ (body.length = 3 ∧ within 1 48 (body.getD 2 0).toNat = true) :=
      fun hs => h ⟨fun _ => hs, nofun, nofun⟩
    match body with
    | [high, low, count] => exact if_neg fun hn => hs ⟨rfl, hn⟩
    | [] | [_] | [_, _] | _ :: _ :: _ :: _ :: _ => rfl
  | write =>
    have hs : ¬ (3 ≤ body.length ∧ body.length ≤ 48) := fun hs => h ⟨nofun, fun _ => hs, nofun⟩
    match body with
    | high :: low :: first :: rest => exact if_neg fun hn => hs (by simp only [List.length_cons]; omega)
    | [] | [_] | [_, _] => rfl

/-- A RELAY's Body is forwarded as it stands (R58). -/
theorem forwardBody_relay (hr : c ≠ .refuse) (h : ShapeFits c body) :
    forwardBody p .relay c body = some body := by
  by_cases hc : c = .control
  · subst hc
    exact forwardBody_control (h.2.2 rfl)
  · rw [forwardBody_register hr hc h]
    obtain ⟨read, write, -⟩ := h
    have long : 2 ≤ body.length := by
      cases c with
      | refuse => exact absurd rfl hr
      | control => exact absurd rfl hc
      | read => have := read rfl; omega
      | write => have := write rfl; omega
    match body, long with
    | high :: low :: rest, _ => simp [forwardRegister, headRegister, wordOctets_wordOf]

/-- A LEAF's register is the head's plus the register offset, where that is a register (R71). -/
theorem forwardBody_leaf (hr : c ≠ .refuse) (hc : c ≠ .control) (h : ShapeFits c body) :
    forwardBody p .leaf c body =
      if 0 ≤ registerSum p body ∧ registerSum p body ≤ 65535 then
        some (wordOctets (BitVec.ofInt 16 (registerSum p body)) ++ body.drop 2)
      else none := by
  rw [forwardBody_register hr hc h]
  have translated : forwardRegister p .leaf (headRegister body) =
      if 0 ≤ registerSum p body ∧ registerSum p body ≤ 65535 then
        some (BitVec.ofInt 16 (registerSum p body))
      else none := rfl
  rw [translated]
  split <;> rfl

end Body

/-! ### The outbound request -/

/-- The outbound Dest of a request (R57, R58). -/
def outboundDest (e : DirEntry) (target : Octet) : Octet :=
  match e.kind with
  | .leaf => e.node
  | .relay => target

section Outbound

variable {k : Bank} {e : DirEntry} {t : Telegram} {c : OpClass}

theorem requestOutbound_classless
    (h : ∀ c, ¬ HasClass (k.profiles.get e.profile) e.kind t.code c) :
    requestOutbound k e t = .error .unsupported := by
  simp only [requestOutbound, requestClass_eq_none h]

theorem requestOutbound_denied (h : HasClass (k.profiles.get e.profile) e.kind t.code c)
    (hd : Denies e.access c) : requestOutbound k e t = .error .denied := by
  simp [requestOutbound, requestClass_of_hasClass h, (denies_iff _ _).mp hd]

/-- A request that the access mode admits stands or falls with its Body. -/
theorem requestOutbound_admitted (h : HasClass (k.profiles.get e.profile) e.kind t.code c)
    (hd : ¬ Denies e.access c) :
    requestOutbound k e t =
      (forwardBody (k.profiles.get e.profile) e.kind c t.body).elim (.error .range) fun body => .ok
        { dest := outboundDest e t.dest
          code := forwardedCode (k.profiles.get e.profile) e.kind t.code, body := body } := by
  have ha : e.access.admits c = true := by simpa [denies_iff] using hd
  unfold requestOutbound
  extract_lets p
  rw [show requestClass p e.kind t.code = _ from requestClass_of_hasClass h]
  dsimp only
  rw [ha]
  cases forwardBody (k.profiles.get e.profile) e.kind c t.body <;> rfl

end Outbound

/-- Settles O15: the class, then the access mode, then the Body by the kind of the station. -/
theorem requestTranslation : Obligations.RequestTranslation := by
  intro k e t p code
  refine ⟨requestOutbound_classless, fun c hc => ⟨requestOutbound_denied hc, fun hd => ?_⟩⟩
  have hr := hasClass_not_refuse hc
  rw [requestOutbound_admitted hc hd]
  refine ⟨fun hs => by rw [forwardBody_misshapen hr hs]; rfl, fun hs => ⟨fun hk => ?_, fun hk hct => ?_,
    fun hk hct far => ?_, fun hk hct low high => ?_⟩⟩
  · simp [outboundDest, forwardedCode, hk, forwardBody_relay hr hs]
  · subst hct
    simp only [outboundDest, forwardedCode, hk, forwardBody_control (hs.2.2 rfl)]; rfl
  · have outside : ¬ (0 ≤ registerSum p t.body ∧ registerSum p t.body ≤ 65535) :=
      fun ⟨low, high⟩ => far.elim low.not_gt high.not_gt
    rw [hk, forwardBody_leaf hr hct hs, if_neg outside]; rfl
  · rw [hk, forwardBody_leaf hr hct hs, if_pos ⟨low, high⟩]
    simp only [outboundDest, forwardedCode, hk]; rfl

end Sys2Proof.RequestReading

/-! SUPPORT. Admission (R28 to R34): the first check that fails decides the answer, and a request that passes
every check opens a record. -/

namespace Sys2Proof.Admission

-- Theorems elaborated side by side each hold a thread; one after another the whole text fits in memory.
set_option Elab.async false

open Sys2Proof.Machine Sys2Proof.Safety Sys2Proof.Laws Sys2Proof.TableMoves

section Reached

variable {s : State} {source target seq code : Octet} {body : List Octet} {d : Fin 64} {e : DirEntry}

theorem admission_judged (h : ReachesAdmission s source target seq body d e) :
    exec (.admission source target seq code body) s =
      .next (s.judgeRequest d e (request source target seq code body)) :=
  takeOnTrunk_admission h.ready h.sourceFits h.targetFits h.bodyFitsOk h.notOwn h.represented

theorem admission_fresh (h : ReachesAdmission s source target seq body d e) :
    s.duplicateOf (request source target seq code body) = none :=
  duplicateOf_none h.notRepeated

end Reached

/-! ### The checks in their order -/

section Checks

variable {s : State} {d : Fin 64} {e : DirEntry} {t : Telegram} {out : Outbound}

theorem judgeRequest_unreadable {reason : Reason} (fresh : s.duplicateOf t = none)
    (ho : requestOutbound s.liveBank e t = .error reason) : s.judgeRequest d e t = s.refuse t reason := by
  simp only [State.judgeRequest, fresh, ho]

theorem judgeRequest_down (fresh : s.duplicateOf t = none) (ho : requestOutbound s.liveBank e t = .ok out)
    (down : (s.line e.branch).state.isDown = true) : s.judgeRequest d e t = s.refuse t .lineOff := by
  simp only [State.judgeRequest, fresh, ho, down, if_true]

theorem judgeRequest_busy (fresh : s.duplicateOf t = none) (ho : requestOutbound s.liveBank e t = .ok out)
    (up : (s.line e.branch).state.isDown = false)
    (busy : (s.line e.branch).settings.quota.toNat ≤ s.activeCount e.branch) :
    s.judgeRequest d e t = s.refuse t .branchBusy := by
  simp only [State.judgeRequest, fresh, ho, up, Bool.false_eq_true, if_false, busy, if_true]

/-- Past the checks of the request and of its line, the record supply decides. -/
theorem judgeRequest_supplied (fresh : s.duplicateOf t = none)
    (ho : requestOutbound s.liveBank e t = .ok out) (up : (s.line e.branch).state.isDown = false)
    (room : s.activeCount e.branch < (s.line e.branch).settings.quota.toNat) :
    s.judgeRequest d e t = s.supply.elim (s.refuse t .full) fun u => u.1.openRecord u.2
      (u.1.newRecord d e t out) t := by
  simp only [State.judgeRequest, fresh, ho, up, Bool.false_eq_true, if_false, room.not_ge]
  cases s.supply <;> rfl

end Checks

/-! ### The record supply -/

section Supply

variable {s : State} {i : SlotId}

theorem supply_of_free (h : s.freeSlot = some i) : s.supply = some (s, i) := by
  simp only [State.supply, h]

theorem freeSlot_of_full (h : ∀ j, s.record j ≠ none) : s.freeSlot = none := by
  simp [State.freeSlot, h, Option.isNone_iff_eq_none]

/-- With no slot FREE and no record DELIVERED there is no supply (R33). -/
theorem supply_of_none (h : ∀ i, ∃ r, s.record i = some r ∧ r.deliveryStamp = none) : s.supply = none := by
  have full : s.freeSlot = none := freeSlot_of_full fun j => by
    obtain ⟨r, hr, -⟩ := h j
    simp [hr]
  have stampless : ∀ j, s.deliveryStamp j = none := fun j => by
    obtain ⟨r, hr, hs⟩ := h j
    simp [State.deliveryStamp, hr, hs]
  have none_delivered : s.earliestDelivered = none := by
    simp [State.earliestDelivered, stampless]
  simp only [State.supply, full, none_delivered]

/-- The earliest DELIVERED record is the one of the least delivery stamp (R33). -/
theorem earliestDelivered_of_least {stamp : Nat} (hi : s.deliveryStamp i = some stamp)
    (least : ∀ j later, j ≠ i → s.deliveryStamp j = some later → stamp < later) :
    s.earliestDelivered = some i := by
  have fits : ((s.deliveryStamp i).any fun d =>
      (List.finRange 16).all fun j => (s.deliveryStamp j).all fun d' => decide (d ≤ d')) = true := by
    simp only [hi, Option.any_some, List.all_eq_true, Option.all_eq_true, decide_eq_true_eq]
    intro j _ later hj
    by_cases hji : j = i
    · subst hji; simp_all
    · exact (least j later hji hj).le
  cases hf : s.earliestDelivered with
  | none => exact absurd fits (List.find?_eq_none.mp hf i (List.mem_finRange i))
  | some k =>
    have found := List.find?_some hf
    obtain ⟨first, hk, all⟩ := (Option.any_eq_true _ _).mp found
    simp only [List.all_eq_true, Option.all_eq_true, decide_eq_true_eq] at all
    have early : first ≤ stamp := all i (List.mem_finRange i) stamp hi
    by_contra hne
    exact absurd (least k first (fun h => hne (congrArg some h)) hk) early.not_gt

theorem supply_of_earliest {stamp : Nat} (full : ∀ j, s.record j ≠ none)
    (hi : s.deliveryStamp i = some stamp)
    (least : ∀ j later, j ≠ i → s.deliveryStamp j = some later → stamp < later) :
    s.supply = some (s.setRecord i none, i) := by
  simp only [State.supply, freeSlot_of_full full, earliestDelivered_of_least hi least]

/-- Once a slot of a full table is reclaimed, it is the one FREE slot. -/
theorem supply_of_reclaimed (full : ∀ j, s.record j ≠ none) :
    (s.setRecord i none).supply = some (s.setRecord i none, i) :=
  supply_of_free ((freeSlot_eq_some _ i).mpr ⟨by simp, fun j hj => by simpa [hj.ne] using full j⟩)

end Supply

/-- Settles O12: the checks one after another. -/
theorem admissionRefusesInOrder : Obligations.AdmissionRefusesInOrder := by
  intro s source target seq code body d e h
  rw [admission_judged h]
  have fresh := admission_fresh (code := code) h
  refine ⟨fun reason ho => ?_, fun out ho => ⟨fun down => ?_, fun up busy => ?_, fun up room none => ?_⟩⟩
  · rw [judgeRequest_unreadable fresh ho]; rfl
  · rw [judgeRequest_down fresh ho down]; rfl
  · rw [judgeRequest_busy fresh ho up busy]; rfl
  · rw [judgeRequest_supplied fresh ho up room, supply_of_none none]; rfl

/-- Settles O11: the admitted record in its slot and in its queue. -/
theorem admissionOpensRecord : Obligations.AdmissionOpensRecord := by
  intro s source target seq code body d e out i h ho up room free low record admitted
  have opened : s.judgeRequest d e (request source target seq code body) =
      s.openRecord i record (request source target seq code body) := by
    rw [judgeRequest_supplied (admission_fresh h) ho up room,
      supply_of_free ((freeSlot_eq_some s i).mpr ⟨free, low⟩)]
    rfl
  rw [admission_judged h, opened, openRecord_eq]
  have filled : (s.setIssue i (s.issue i + 1)).setRecord i (some record) =
      { s with slots := s.slots.set i { issue := s.issue i + 1, record := some record } } := by
    simp [State.setRecord, State.setIssue]
  rw [filled]; rfl

/-! ### Reclaiming -/

/-- A DELIVERED record counts in no branch (R24). -/
theorem activeCount_reclaimed {s : State} {i : SlotId} {r : Record} {stamp : Nat}
    (hr : s.record i = some r) (hs : r.deliveryStamp = some stamp) (b : Branch) :
    (s.setRecord i none).activeCount b = s.activeCount b :=
  countRecords_congr fun j => by
    by_cases hj : j = i
    · subst hj; simp [hr, (idle_of_deliveryStamp hs).1]
    · simp [hj]

theorem reachesAdmission_reclaimed {s : State} {source target seq : Octet} {body : List Octet}
    {d : Fin 64} {e : DirEntry} (h : ReachesAdmission s source target seq body d e) (i : SlotId) :
    ReachesAdmission (s.setRecord i none) source target seq body d e where
  ready := h.ready
  sourceFits := h.sourceFits
  targetFits := h.targetFits
  bodyFitsOk := h.bodyFitsOk
  notOwn := h.notOwn
  represented := h.represented
  notRepeated j q hq := by
    by_cases hj : j = i
    · simp [hj] at hq
    · exact h.notRepeated j q (by simpa [hj] using hq)

/-- Settles O13: before and after the reclaiming the supply is the same. -/
theorem admissionReclaimsEarliestDelivered : Obligations.AdmissionReclaimsEarliestDelivered := by
  intro s source target seq code body d e out i stamp h ho up room full hi least
  obtain ⟨r, hr, hs⟩ := Option.bind_eq_some_iff.mp hi
  have h' := reachesAdmission_reclaimed h i
  have room' : (s.setRecord i none).activeCount e.branch <
      ((s.setRecord i none).line e.branch).settings.quota.toNat := by
    rw [activeCount_reclaimed hr hs]; exact room
  rw [admission_judged h, judgeRequest_supplied (admission_fresh h) ho up room,
    supply_of_earliest full hi least, admission_judged h',
    judgeRequest_supplied (admission_fresh h') ho up room', supply_of_reclaimed full]
  rfl

/-! ### Duplicates -/

/-- Where no two records repeat one request, a repeated request meets its record (R29). -/
theorem duplicateOf_of_repeats {s : State} {t : Telegram} {i : SlotId} {r : Record}
    (distinct : NoTwinRecords s) (hr : s.record i = some r) (h : Repeats r t.source t.seq t.dest) :
    s.duplicateOf t = some i := by
  obtain ⟨hso, hse, hta⟩ := h
  cases hf : s.duplicateOf t with
  | none =>
    have := List.find?_eq_none.mp hf i (List.mem_finRange i)
    simp [hr, hso, hse, hta] at this
  | some k =>
    have found := List.find?_some hf
    obtain ⟨q, hq, same⟩ := (Option.any_eq_true _ _).mp found
    simp only [Bool.and_eq_true, beq_iff_eq] at same
    obtain ⟨⟨qso, qse⟩, qta⟩ := same
    rw [distinct k i q r hq hr (qso.trans hso.symm) (qse.trans hse.symm) (qta.trans hta.symm)]

/-- Settles O14: the duplicate's slot is found, before any other check. -/
theorem duplicateAnsweredWithTicket : Obligations.DuplicateAnsweredWithTicket := by
  intro s source target seq code body d e i r ready hs ht hb ho hd distinct hr repeats
  have taken : exec (.admission source target seq code body) s =
      .next (s.judgeRequest d e (request source target seq code body)) :=
    takeOnTrunk_admission ready hs ht hb ho hd
  have duplicate : s.duplicateOf (request source target seq code body) = some i :=
    duplicateOf_of_repeats distinct hr repeats
  rw [taken]
  simp only [State.judgeRequest, duplicate]
  rfl

end Sys2Proof.Admission

/-! SUPPORT. The events of a record: its completion (R22, R25, R91), a failed attempt (R38) and the expiries of
its timers (R39, R41, R47). -/

namespace Sys2Proof.RecordEvents

-- Theorems elaborated side by side each hold a thread; one after another the whole text fits in memory.
set_option Elab.async false

open Sys2Proof.Machine Sys2Proof.Safety Sys2Proof.Laws Sys2Proof.TableMoves

/-! ### What a completing record leaves on its line -/

section LeftBy

variable {i : SlotId} {r : Record} (ln : BranchLine)

theorem leftBy_of_queued (h : r.activeState = some .queued) :
    leftBy i r ln = { ln with queue := ln.queue.erase i } := by
  simp only [leftBy, h]

theorem leftBy_of_onLine (h : r.activeState = some .onLine) :
    leftBy i r ln = { ln with state := orphanedState i ln.state } := by
  simp only [leftBy, h]

theorem leftBy_of_waiting {w : Word}
    (h : r.activeState = some (.backoff w) ∨ r.activeState = some (.deferred w)) : leftBy i r ln = ln := by
  obtain h | h := h <;> simp only [leftBy, h]

/-- Of a controller it changes the queue and the state of its attempt alone. -/
theorem leftBy_eta : leftBy i r ln =
    { ln with queue := (leftBy i r ln).queue, state := (leftBy i r ln).state } := by
  unfold leftBy
  cases r.activeState with
  | none => rfl
  | some st => cases st <;> rfl

theorem orphaned_own {x : Exchange} (h : x.record = some i) : x.orphaned i = { x with record := none } :=
  if_pos h

theorem orphanedState_of_other {st : LineState} (h : LineState.record st ≠ some i) :
    orphanedState i st = st := by
  cases st with
  | sending a =>
    cases a with
    | exchange x => exact congrArg (fun y => LineState.sending (.exchange y)) (if_neg h)
    | broadcast seq => rfl
  | listening x w => exact congrArg (fun y => LineState.listening y w) (if_neg h)
  | _ => rfl

end LeftBy

/-- The completion of an active record, in one equation (R25, R91). -/
theorem complete_eq {s : State} {i : SlotId} {r : Record} (x : Result) (hr : s.record i = some r)
    (ha : r.isActive = true) :
    s.complete i x =
      { s with
        slots := s.slots.set i { issue := s.issue i, record := some (r.completed x s.holdTime) }
        attn := true
        lines := s.lines.set r.branch (leftBy i r (s.line r.branch))
        drainCount :=
          if s.otherRole = .draining ∧ r.bank ≠ s.live then s.drainCount - 1 else s.drainCount
        otherRole :=
          if (s.otherRole = .draining ∧ r.bank ≠ s.live) ∧ s.drainCount ≤ 1 then .reseeding
          else s.otherRole } := by
  rw [complete_of_active x hr ha, leaveLine_eq, depart_eq]
  rfl

theorem complete_lines_of_same {s : State} {i : SlotId} {r : Record} (x : Result)
    (hr : s.record i = some r) (ha : r.isActive = true)
    (same : leftBy i r (s.line r.branch) = s.line r.branch) : (s.complete i x).lines = s.lines := by
  rw [complete_eq x hr ha, same]
  have unchanged := congrArg State.lines (setLine_self s r.branch)
  exact unchanged

/-- Settles O40: the completion's equation, read by the state that the record leaves. -/
theorem completionEffects : Obligations.CompletionEffects := by
  intro s i r st lifetime result hr hp t drains
  have ha := isActive_of_phase hp
  have hst : r.activeState = some st := activeState_of_phase hp
  have line : ∀ b, t.line b = if b = r.branch then leftBy i r (s.line b) else s.line b :=
    complete_line result hr ha
  have own : t.line r.branch = leftBy i r (s.line r.branch) := by rw [line, if_pos rfl]
  have departs : drains ↔ s.otherRole = .draining ∧ r.bank ≠ s.live := by
    simp only [drains, BankId.ne_iff_eq_other]
  refine ⟨?_, fun b hb => by rw [line, if_neg hb], fun h => ?_, fun h => ⟨fun x hx hs => ?_,
    fun x w hx hs => ?_, fun h' => ?_⟩, fun h => ?_, fun h => ?_, fun h => ?_⟩
  · rw [show t = _ from complete_eq result hr ha]; rfl
  · rw [own, leftBy_of_queued _ (h ▸ hst)]
  · rw [own, leftBy_of_onLine _ (h ▸ hst), hs]
    simp only [orphanedState, orphaned_own hx]
  · rw [own, leftBy_of_onLine _ (h ▸ hst), hs]
    simp only [orphanedState, orphaned_own hx]
  · refine complete_lines_of_same result hr ha ?_
    rw [leftBy_of_onLine _ (h ▸ hst), orphanedState_of_other h']
  · obtain ⟨w, h⟩ := h
    exact complete_lines_of_same result hr ha (leftBy_of_waiting _ (w := w) (by simpa [hst] using h))
  · have hd := departs.mp h
    rw [show t = _ from complete_eq result hr ha]
    simp only [hd, ne_eq, not_false_eq_true, and_self, true_and, if_true]
  · have hd := mt departs.mpr h
    rw [show t = _ from complete_eq result hr ha]
    simp only [hd, false_and, if_false, and_self]

/-! ### A failed attempt -/

/-- Settles O41: the three outcomes of a failure. -/
theorem failureRetriesOrCompletes : Obligations.FailureRetriesOrCompletes := by
  intro s i r lifetime f hr hp delay again
  have ho : r.activeState = some .onLine := activeState_of_phase hp
  refine ⟨fun left wait => ?_, fun left none => ?_, fun spent => ?_⟩
  · have : (s.line r.branch).settings.delay ≠ 0 := by rintro h; simp [delay, h] at wait
    simp only [State.reportFailure, hr, ho, if_true, left.ne', this, if_false, withActive_of_active hp]
    rfl
  · have : (s.line r.branch).settings.delay = 0 := none
    simp only [State.reportFailure, hr, ho, if_true, left.ne', this, if_false, withActive_of_active hp]
    rfl
  · simp only [State.reportFailure, hr, ho, if_true, spent]
    cases f <;> rfl

/-! ### The timers of a record -/

section Timers

variable {s : State} {i : SlotId}

theorem lifetimeExpiry_runs (h : s.inReset = false) :
    exec (.lifetimeExpiry i) s = .next (s.lifetimeExpired i) :=
  congrArg _ (whenRunning_of_running h _)

theorem holdExpiry_runs (h : s.inReset = false) : exec (.holdExpiry i) s = .next (s.holdExpired i) :=
  congrArg _ (whenRunning_of_running h _)

theorem lingerExpiry_runs (h : s.inReset = false) :
    exec (.lingerExpiry i) s = .next (s.lingerExpired i) :=
  congrArg _ (whenRunning_of_running h _)

theorem waitExpiry_runs (h : s.inReset = false) : exec (.waitExpiry i) s = .next (s.waitExpired i) :=
  congrArg _ (whenRunning_of_running h _)

variable {r : Record} (hr : s.record i = some r)
include hr

/-- The lifetime timer runs in the active states alone (R23). -/
theorem lifetimeExpired_of_inactive (ha : r.isActive = false) : s.lifetimeExpired i = s := by
  have stands : ∀ x, s.complete i x = s := fun x => complete_of_inactive x fun q hq => by simp_all
  have off : waitedOffLine r = false := by simp [waitedOffLine, activeState_of_inactive ha]
  simp [State.lifetimeExpired, State.completeEarly, hr, stands, off]

theorem lifetimeExpired_eq : s.lifetimeExpired i =
    if waitedOffLine r then
      (s.complete i (.fault 0x0C (some (failureDetail r.failure)))).look r.branch
    else s.complete i (.fault 0x0C (some (failureDetail r.failure))) := by
  simp only [State.lifetimeExpired, State.completeEarly, hr]; rfl

theorem holdExpired_of_not_done (h : r.isDone = false) : s.holdExpired i = s := by
  simp [State.holdExpired, hr, h]

theorem lingerExpired_of_not_delivered (h : r.deliveryStamp = none) : s.lingerExpired i = s := by
  cases hp : r.phase with
  | delivered x linger stamp => simp [Record.deliveryStamp, hp] at h
  | _ => simp only [State.lingerExpired, hr, hp]

/-- A DONE record is freed and counted UNCLAIMED, and ATTN follows (R26, R47). -/
theorem holdExpired_of_done (h : r.isDone = true) :
    s.holdExpired i = ((s.setRecord i none).countTrunk .unclaimed).releaseAttention := by
  simp [State.holdExpired, hr, h]

theorem lingerExpired_of_delivered {x : Result} {linger : Word} {stamp : Nat}
    (hp : r.phase = .delivered x linger stamp) : s.lingerExpired i = s.setRecord i none := by
  simp only [State.lingerExpired, hr, hp]

omit hr in
theorem timers_of_free (hr : s.record i = none) :
    s.lifetimeExpired i = s ∧ s.holdExpired i = s ∧ s.lingerExpired i = s := by
  simp only [State.lifetimeExpired, State.holdExpired, State.lingerExpired, hr, and_self]

end Timers

theorem waitedOffLine_iff {r : Record} {st : ActiveState} (h : r.activeState = some st) :
    waitedOffLine r = true ↔ st = .queued ∨ ∃ w, st = .backoff w := by
  cases st <;> simp [waitedOffLine, h]

/-- Settles O43: the phases one by one. -/
theorem recordTimersExpire : Obligations.RecordTimersExpire := by
  intro s i running
  rw [lifetimeExpiry_runs running, holdExpiry_runs running, lingerExpiry_runs running]
  refine ⟨fun hr => ?_, fun r hr => ⟨fun st lifetime hp => ?_, fun result hold hp => ?_,
    fun result linger stamp hp => ?_⟩⟩
  · obtain ⟨hl, hh, hg⟩ := timers_of_free hr
    exact ⟨congrArg _ hl, congrArg _ hh, congrArg _ hg⟩
  · have ha := isActive_of_phase hp
    have hst : r.activeState = some st := activeState_of_phase hp
    refine ⟨congrArg _ (holdExpired_of_not_done hr (isDone_of_isActive ha)),
      congrArg _ (lingerExpired_of_not_delivered hr (by simp [Record.deliveryStamp, hp])), ?_⟩
    intro expired
    have expiry : s.lifetimeExpired i = if waitedOffLine r then expired.look r.branch else expired :=
      lifetimeExpired_eq hr
    refine ⟨fun h => ?_, fun h => ?_⟩
    · rw [expiry, if_pos ((waitedOffLine_iff hst).mpr h)]
    · rw [expiry, if_neg]
      rw [waitedOffLine_iff hst]
      obtain rfl | ⟨w, rfl⟩ := h <;> simp
  · have hd := isDone_of_phase hp
    refine ⟨congrArg _ (lifetimeExpired_of_inactive hr (isActive_of_isDone hd)),
      congrArg _ (lingerExpired_of_not_delivered hr (by simp [Record.deliveryStamp, hp])), ?_⟩
    rw [holdExpired_of_done hr hd, Tickets.releaseAttention_left (s := s) (i := i)
      (fun j hj => by simp [hj]) (by simp)]
    rfl
  · obtain ⟨ha, hd⟩ := idle_of_deliveryStamp (r := r) (n := stamp) (by simp [Record.deliveryStamp, hp])
    refine ⟨congrArg _ (lifetimeExpired_of_inactive hr ha), congrArg _ (holdExpired_of_not_done hr hd), ?_⟩
    rw [lingerExpired_of_delivered hr hp]
    rfl

/-! ### The wait timer -/

section Wait

variable {s : State} {i : SlotId} {r : Record} {wait life : Word}

theorem waitExpired_backoff (hr : s.record i = some r) (hp : r.phase = .active (.backoff wait) life) :
    s.waitExpired i = (s.setRecord i (some
      { r with phase := .active .queued life })).joinQueue r.branch i := by
  simp only [State.waitExpired, hr, activeState_of_phase hp, withActive_of_active hp]

theorem waitExpired_deferred (hr : s.record i = some r) (hp : r.phase = .active (.deferred wait) life) :
    s.waitExpired i = (s.setRecord i (some
      { r with
        phase := .active .queued life, branchSeq := none
        retries := s.capturedBudget r })).joinQueue r.branch i := by
  simp only [State.waitExpired, hr, activeState_of_phase hp, withActive_of_active hp]

/-- The wait timer runs in BACKOFF and in DEFERRED alone (R23). -/
theorem waitExpired_stopped (h : ∀ r, s.record i = some r → ∀ w,
    r.activeState ≠ some (.backoff w) ∧ r.activeState ≠ some (.deferred w)) : s.waitExpired i = s := by
  cases hr : s.record i with
  | none => simp only [State.waitExpired, hr]
  | some r =>
    cases hst : r.activeState with
    | none => simp only [State.waitExpired, hr, hst]
    | some st =>
      cases st with
      | queued => simp only [State.waitExpired, hr, hst]
      | onLine => simp only [State.waitExpired, hr, hst]
      | backoff w => exact absurd hst (h r hr w).1
      | deferred w => exact absurd hst (h r hr w).2

end Wait

/-- Settles O44: the states of the wait timer. -/
theorem waitExpiryRejoinsQueue : Obligations.WaitExpiryRejoinsQueue := by
  intro s i running
  rw [waitExpiry_runs running]
  refine ⟨fun r wait lifetime hr => ⟨fun hp => ?_, fun e hp entry => ?_⟩, fun h => ?_⟩
  · rw [waitExpired_backoff hr hp]; rfl
  · have budget : s.capturedBudget r = e.budget.val := capturedBudget_of_entry entry
    rw [waitExpired_deferred hr hp, budget]; rfl
  · rw [waitExpired_stopped h]

end Sys2Proof.RecordEvents

/-! SUPPORT. The completion of a set of records, and the two events that complete one: a line going down (R43,
R122, R123) and RETIRE (R44, R92). -/

namespace Sys2Proof.SetCompletion

-- Theorems elaborated side by side each hold a thread; one after another the whole text fits in memory.
set_option Elab.async false

open Sys2Proof.Machine Sys2Proof.Safety Sys2Proof.Laws Sys2Proof.TableMoves Sys2Proof.RecordEvents

/-! ### The slots whose records complete -/

/-- A slot whose record is active and in the set. -/
def hits (s : State) (p : Record → Bool) (i : SlotId) : Bool := (s.record i).any fun r => r.isActive && p r

/-- Of the slots hit, those gone through so far. -/
def hitSo (s : State) (p : Record → Bool) (l : List SlotId) (i : SlotId) : Bool := decide (i ∈ l) && hits s p i

theorem hits_of_record {s : State} {p : Record → Bool} {i : SlotId} {r : Record} (hr : s.record i = some r)
    (ha : r.isActive = true) (hp : p r = true) : hits s p i = true := by simp [hits, hr, ha, hp]

theorem hitSo_nil (s : State) (p : Record → Bool) : hitSo s p [] = fun _ => false :=
  funext fun i => by simp [hitSo]

theorem hitSo_finRange (s : State) (p : Record → Bool) : hitSo s p (List.finRange 16) = hits s p :=
  funext fun i => by simp [hitSo]

theorem hitSo_of_ne {s : State} {p : Record → Bool} {l : List SlotId} {i j : SlotId} (h : j ≠ i) :
    hitSo s p (l ++ [i]) j = hitSo s p l j := by simp [hitSo, h]

theorem hitSo_self {s : State} {p : Record → Bool} {l : List SlotId} {i : SlotId} (h : hits s p i = true) :
    hitSo s p (l ++ [i]) i = true := by simp [hitSo, h]

theorem hitSo_skip {s : State} {p : Record → Bool} {l : List SlotId} {i : SlotId} (h : hits s p i = false) :
    hitSo s p (l ++ [i]) = hitSo s p l := funext fun j => by
  by_cases hj : j = i
  · simp [hitSo, hj, h]
  · exact hitSo_of_ne hj

/-- The completion of a set of records, slot by slot: each record stands as it was until its slot is come
to. -/
theorem completeAll_induct {s : State} {p : Record → Bool} {x : Result} {P : List SlotId → State → Prop}
    (base : P [] s)
    (complete : ∀ l u i r, P l u → s.record i = some r → u.record i = some r → r.isActive = true →
      p r = true → P (l ++ [i]) (u.complete i x))
    (skip : ∀ l u i, P l u → hits s p i = false → P (l ++ [i]) u) :
    P (List.finRange 16) (s.completeAll p x) := by
  have key : ∀ l : List SlotId, l.Nodup →
      let u := l.foldl (fun s i =>
        if (s.record i).any (fun r => r.isActive && p r) then s.complete i x else s) s
      P l u ∧ ∀ j, j ∉ l → u.record j = s.record j := by
    intro l
    induction l using List.reverseRecOn with
    | nil => exact fun _ => ⟨base, fun _ _ => rfl⟩
    | append_singleton l i ih =>
      intro hn
      rw [List.foldl_concat]
      obtain ⟨hu, stands⟩ := ih (List.nodup_append.mp hn).1
      have new : i ∉ l := fun hi => (List.nodup_append.mp hn).2.2 i hi i (List.mem_singleton_self i) rfl
      generalize l.foldl _ s = u at hu stands ⊢
      dsimp only
      split
      · rename_i hit
        obtain ⟨r, hr, h⟩ := (Option.any_eq_true _ _).mp hit
        obtain ⟨ha, hp⟩ := (Bool.and_eq_true _ _).mp h
        refine ⟨complete l u i r hu ((stands i new).symm.trans hr) hr ha hp, fun j hj => ?_⟩
        simp only [List.mem_append, List.mem_singleton, not_or] at hj
        rw [complete_record, if_neg hj.2, stands j hj.1]
      · rename_i hit
        refine ⟨skip l u i hu (by rw [hits, ← stands i new]; simpa using hit), fun j hj => ?_⟩
        simp only [List.mem_append, List.mem_singleton, not_or] at hj
        exact stands j hj.1
  exact (key _ (List.nodup_finRange 16)).1

/-! ### What the completion of a set changes -/

section Effects

variable {s : State} (p : Record → Bool) (x : Result)

/-- ATTN is asserted where a record completes (R25). -/
theorem completeAll_attn :
    (s.completeAll p x).attn = (s.attn || s.someRecord fun r => r.isActive && p r) := by
  have each := completeAll_induct (s := s) (p := p) (x := x)
    (P := fun l u => u.attn = (s.attn || l.any (hits s p))) (by simp)
    (fun l u i r _ hr hu ha hp => by
      simp [complete_eq x hu ha, hits_of_record hr ha hp])
    (fun l u i hu skip => by simp [hu, skip])
  exact each

/-- Only the exchange table, the lines, ATTN, the drain count and the role change. -/
theorem completeAll_rest : ∃ slots lines attn role count, s.completeAll p x =
    { s with slots := slots, lines := lines, attn := attn, otherRole := role, drainCount := count } := by
  refine completeAll_keeps (fun u => ∃ slots lines attn role count, u =
    { s with slots := slots, lines := lines, attn := attn, otherRole := role, drainCount := count })
    p x ⟨_, _, _, _, _, rfl⟩ fun u i r hu hr ha _ => ?_
  obtain ⟨_, _, _, _, _, rfl⟩ := hu
  exact ⟨_, _, _, _, _, complete_eq x hr ha⟩

/-- Of a controller the queue and the state of its attempt alone. -/
theorem completeAll_line (b : Branch) : (s.completeAll p x).line b =
    { s.line b with
      queue := ((s.completeAll p x).line b).queue, state := ((s.completeAll p x).line b).state } := by
  refine completeAll_keeps (fun u => u.line b = { s.line b with
    queue := (u.line b).queue, state := (u.line b).state }) p x rfl fun u i r hu hr ha _ => ?_
  rw [complete_line x hr ha]
  split
  · rw [leftBy_eta, hu]
  · exact hu

/-- The controller of a branch that none of the records is on stays as it was. -/
theorem completeAll_line_of_ne {b : Branch} (h : ∀ r, p r = true → r.branch ≠ b) :
    (s.completeAll p x).line b = s.line b :=
  completeAll_keeps (fun u => u.line b = s.line b) p x rfl fun u i r hu hr _ hp => by
    rw [complete_line_of_ne x hr (h r hp).symm, hu]

/-- The records that complete leave their queues (R25). -/
theorem completeAll_queue (h : QueueHoldsQueued s) (b : Branch) :
    ((s.completeAll p x).line b).queue = (s.line b).queue.filter fun i => !hits s p i := by
  have each := completeAll_induct (s := s) (p := p) (x := x)
    (P := fun l u => (u.line b).queue = (s.line b).queue.filter fun i => !hitSo s p l i)
    (by simp [hitSo_nil])
    (fun l u i r hq hr hu ha hp => ?_)
    (fun l u i hq skip => by rw [hq, hitSo_skip skip])
  · rwa [hitSo_finRange] at each
  · rw [complete_queue x hu ha, hq]
    have hit := hits_of_record hr ha hp
    split
    · rw [((h b).1.filter _).erase_eq_filter, List.filter_filter]
      refine List.filter_congr fun j _ => ?_
      by_cases hj : j = i
      · simp [hj, hitSo_self hit]
      · simp [hj, hitSo_of_ne]
    · rename_i out
      refine List.filter_congr fun j hmem => ?_
      have hj : j ≠ i := by
        rintro rfl
        obtain ⟨hs, hb⟩ := (stands_some _ _ _).mp (hr ▸ (queue_mem h b j).mp hmem)
        exact out ⟨hb.symm, hs⟩
      rw [hitSo_of_ne hj]

end Effects

/-! ### The attempts of the records that complete -/

/-- An attempt is an orphan where its record is in the set (R106, R120). -/
def dropped (h : SlotId → Bool) (x : Exchange) : Exchange :=
  if x.record.any h then { x with record := none } else x

/-- A line's state, its attempt an orphan where the attempt's record is in the set. -/
def droppedState (h : SlotId → Bool) (st : LineState) : LineState :=
  match st with
  | .sending (.exchange x) => .sending (.exchange (dropped h x))
  | .listening x w => .listening (dropped h x) w
  | st => st

theorem dropped_congr {f g : SlotId → Bool} {x : Exchange} (h : ∀ i, x.record = some i → f i = g i) :
    dropped f x = dropped g x := by
  cases hr : x.record with
  | none => simp [dropped, hr]
  | some i => simp [dropped, hr, h i hr]

theorem orphaned_dropped (i : SlotId) (f : SlotId → Bool) (x : Exchange) :
    (dropped f x).orphaned i = dropped (fun j => j == i || f j) x := by
  cases hr : x.record with
  | none => simp [dropped, Exchange.orphaned, hr]
  | some j =>
    cases hf : f j with
    | true => simp [dropped, Exchange.orphaned, hr, hf]
    | false => simp [dropped, Exchange.orphaned, hr, hf]

theorem droppedState_congr {f g : SlotId → Bool} {st : LineState}
    (h : ∀ i, LineState.record st = some i → f i = g i) : droppedState f st = droppedState g st := by
  cases st with
  | sending a =>
    cases a with
    | exchange x => simp only [droppedState, dropped_congr h]
    | broadcast seq => rfl
  | listening x w => simp only [droppedState, dropped_congr h]
  | _ => rfl

theorem orphanedState_dropped (i : SlotId) (f : SlotId → Bool) (st : LineState) :
    orphanedState i (droppedState f st) = droppedState (fun j => j == i || f j) st := by
  cases st with
  | sending a =>
    cases a with
    | exchange x => simp only [droppedState, orphanedState, orphaned_dropped]
    | broadcast seq => rfl
  | listening x w => simp only [droppedState, orphanedState, orphaned_dropped]
  | _ => rfl

theorem droppedState_none (st : LineState) : droppedState (fun _ => false) st = st := by
  cases st with
  | sending a => cases a <;> simp [droppedState, dropped]
  | listening x w => simp [droppedState, dropped]
  | _ => rfl

/-- The attempts of the records that complete become orphans (R25, R106). -/
theorem completeAll_state {s : State} (p : Record → Bool) (x : Result) (h : OnLineIsAttempt s) (b : Branch) :
    ((s.completeAll p x).line b).state = droppedState (hits s p) (s.line b).state := by
  have each := completeAll_induct (s := s) (p := p) (x := x)
    (P := fun l u => (u.line b).state = droppedState (hitSo s p l) (s.line b).state)
    (by rw [hitSo_nil, droppedState_none])
    (fun l u i r hst hr hu ha hp => ?_)
    (fun l u i hst skip => by rw [hst, hitSo_skip skip])
  · rwa [hitSo_finRange] at each
  have hit := hits_of_record hr ha hp
  rw [complete_line x hu ha]
  by_cases own : b = r.branch ∧ r.activeState = some .onLine
  · obtain ⟨rfl, ho⟩ := own
    rw [if_pos rfl, leftBy_of_onLine _ ho, hst, orphanedState_dropped]
    refine droppedState_congr fun j _ => ?_
    by_cases hj : j = i
    · simp [hj, hitSo_self hit]
    · simp [hj, hitSo_of_ne]
  · have same : (if b = r.branch then leftBy i r (u.line b) else u.line b).state = (u.line b).state := by
      split
      · rename_i hb; rw [leftBy_state, if_neg fun ho => own ⟨hb, ho⟩]
      · rfl
    rw [same, hst]
    refine droppedState_congr fun j hj => ?_
    have hne : j ≠ i := by
      rintro rfl
      obtain ⟨hs, hb⟩ := (stands_some _ _ _).mp (hr ▸ (attempt_iff h b j).mp hj)
      exact own ⟨hb.symm, hs⟩
    rw [hitSo_of_ne hne]

/-! ### A line going down -/

theorem discard_frame (s : State) (b : Branch) (st : LineState) (bc : Option Broadcast) :
    discard s b st bc = { s with lines := (discard s b st bc).lines } := rfl

theorem someRecord_eq (s : State) (p : Record → Bool) :
    s.someRecord p = decide (0 < s.countRecords p) := by
  rw [Bool.eq_iff_iff, decide_eq_true_iff, Nat.pos_iff_ne_zero, ne_eq, countRecords_eq_zero,
    ← someRecord_false_iff, Bool.not_eq_false]

theorem countUp_toNat (w : Word) : (countUp w).toNat = min (w.toNat + 1) 65535 := by
  unfold countUp
  split
  · rename_i h; rw [h]; rfl
  · have hw : w.toNat ≠ 65535 := fun h => absurd (BitVec.eq_of_toNat_eq h) ‹_›
    have := w.isLt
    rw [BitVec.toNat_add_of_lt] <;> simp <;> omega

/-- The broadcasts that a line going down drops (R122). -/
def droppedBroadcasts (ln : BranchLine) : Nat :=
  (if ln.state.sendsBroadcast then 1 else 0) + (if ln.broadcast.isSome then 1 else 0)

/-- Each dropped broadcast is counted, and no other counter counts (R122, R167). -/
theorem dropBroadcasts_count (s : State) (b b' : Branch) (c : BranchCounter) :
    ((dropBroadcasts s b).branchCount b' c).toNat =
      if b' = b ∧ c = .bcastDropped then
        min ((s.branchCount b' c).toNat + droppedBroadcasts (s.line b)) 65535
      else (s.branchCount b' c).toNat := by
  have below : (s.branchCount b' c).toNat ≤ 65535 := Nat.le_of_lt_succ (s.branchCount b' c).isLt
  by_cases own : b' = b ∧ c = .bcastDropped
  · obtain ⟨rfl, rfl⟩ := own
    simp only [dropBroadcasts, droppedBroadcasts]
    split <;> split <;> simp [countUp_toNat] <;> omega
  · rw [if_neg own]
    simp only [dropBroadcasts]
    split <;> split <;> simp [own]

/-- The outputs are those of the cut (R15, R43). -/
theorem dropBroadcasts_outputs (s : State) (b : Branch) :
    (dropBroadcasts s b).framers = (s.endTransmission (lineOf b)).framers ∧
    (dropBroadcasts s b).driverEnable = (s.endTransmission (lineOf b)).driverEnable := by
  simp only [dropBroadcasts]
  (repeat' split) <;> simp

theorem endTransmission_rest (s : State) (l : Line) : ∃ framers driver, s.endTransmission l =
    { s with framers := framers, driverEnable := driver } := by
  simp only [State.endTransmission]
  split
  · exact ⟨_, _, rfl⟩
  · exact ⟨_, _, rfl⟩

theorem countBranch_rest (s : State) (b : Branch) (c : BranchCounter) (counts : Prop) [Decidable counts] :
    ∃ counters, (if counts then s.countBranch b c else s) = { s with branchCounters := counters } := by
  split
  · exact ⟨_, rfl⟩
  · exact ⟨_, rfl⟩

theorem dropBroadcasts_rest (s : State) (b : Branch) : ∃ framers driver counters, dropBroadcasts s b =
    { s with framers := framers, driverEnable := driver, branchCounters := counters } := by
  obtain ⟨framers, driver, ends⟩ := endTransmission_rest s (lineOf b)
  obtain ⟨first, line⟩ := countBranch_rest { s with framers := framers, driverEnable := driver } b
    .bcastDropped ((s.line b).state.sendsBroadcast = true)
  obtain ⟨counters, buffer⟩ := countBranch_rest
    { s with framers := framers, driverEnable := driver, branchCounters := first } b
    .bcastDropped ((s.line b).broadcast.isSome = true)
  refine ⟨framers, driver, counters, ?_⟩
  simp only [dropBroadcasts, ends]
  rw [line, buffer]

/-- What a line going down can change. -/
theorem lineDown_rest (s : State) (b : Branch) {down : LineState} (h : down.isDown = true) :
    ∃ framers driver counters slots lines attn role count, s.lineDown b down =
      { s with
        framers := framers, driverEnable := driver, branchCounters := counters, slots := slots
        lines := lines, attn := attn, otherRole := role, drainCount := count } := by
  obtain ⟨framers, driver, counters, drop⟩ := dropBroadcasts_rest s b
  obtain ⟨slots, lines, attn, role, count, all⟩ := completeAll_rest (s := dropBroadcasts s b)
    (fun r => r.branch == b) (.fault Reason.lineOff.octet none)
  rw [lineDown_eq s b h, all, drop, discard_frame]
  exact ⟨_, _, _, _, _, _, _, _, rfl⟩

section LineDown

variable {s : State} {b : Branch} (x : Result)

theorem queueHolds_dropBroadcasts (h : QueueHoldsQueued s) : QueueHoldsQueued (dropBroadcasts s b) := by
  simpa [QueueHoldsQueued] using h

/-- Every QUEUED record of the branch leaves the queue. -/
theorem completeAll_branch_queue (h : QueueHoldsQueued s) :
    ((s.completeAll (fun r => r.branch == b) x).line b).queue = [] := by
  rw [completeAll_queue _ x h, List.filter_eq_nil_iff]
  intro i hi
  obtain ⟨r, hr, hs, hb⟩ := (queue_mem h b i).mp hi
  simp [hits_of_record hr (isActive_of_activeState hs) (p := fun r => r.branch == b) (by simpa using hb)]

end LineDown

/-- Settles O42: a line goes down by dropping its broadcasts, completing its records and discarding its
attempt. -/
theorem lineGoingDownCompletesRecords : Obligations.LineGoingDownCompletesRecords := by
  intro s b down hdown hq t dropped
  have isDown : down.isDown = true := by obtain rfl | rfl := hdown <;> rfl
  let u := dropBroadcasts s b
  let v := u.completeAll (fun r => r.branch == b) (.fault 0x04 none)
  have ht : t = discard v b down none := lineDown_eq s b isDown
  obtain ⟨framers, driver⟩ := dropBroadcasts_outputs s b
  have framers : t.framers = (s.endTransmission (lineOf b)).framers := by
    rw [ht, discard_frame, ← framers]; simp [v, u]
  have driver : t.driverEnable = (s.endTransmission (lineOf b)).driverEnable := by
    rw [ht, discard_frame, ← driver]; simp [v, u]
  have framer : ∀ l, t.framer l = (s.endTransmission (lineOf b)).framer l := fun l => by
    rw [State.framer, framers]; rfl
  have count : t.branchCounters = u.branchCounters := by rw [ht, discard_frame]; simp [v]
  refine ⟨?_, fun b' hb => ?_, fun h => ?_, fun h => ?_, fun l hl => ?_, fun b' c => ?_, fun i => ?_, ?_, ?_⟩
  · rw [ht, discard_line, if_pos rfl, completeAll_line,
      completeAll_branch_queue _ (queueHolds_dropBroadcasts hq)]
    simp [u]
  · rw [ht, discard_line, if_neg hb, completeAll_line_of_ne _ _ fun r hr => by
      rw [beq_iff_eq.mp hr]; exact hb.symm]
    simp [u]
  · rw [framer, driver, endTransmission_driver]
    simp [h]
  · rw [framer, driver, endTransmission_driver]
    simp [h]
  · rw [framer, driver, endTransmission_driver]
    simp [hl]
  · rw [State.branchCount, count]
    exact dropBroadcasts_count s b b' c
  · refine ⟨lineDown_issue s b down i, fun hr => by rw [lineDown_record, hr]; rfl, fun r hr => ?_⟩
    rw [lineDown_record, hr]
    simp only [Option.map_some, Bool.and_eq_true, beq_iff_eq]
    rfl
  · have attn : t.attn = v.attn := by rw [ht, discard_frame]
    have same : u.someRecord (fun r => r.isActive && r.branch == b) =
        s.someRecord fun r => r.isActive && r.branch == b := someRecord_congr fun i => by simp [u]
    rw [attn, completeAll_attn, same, someRecord_eq]
    simp only [u, dropBroadcasts_frame]
    rfl
  · obtain ⟨_, _, _, _, _, _, _, _, rest⟩ := lineDown_rest s b isDown
    rw [show t = _ from rest]

end Sys2Proof.SetCompletion

/-! SUPPORT. An accepted answer for the record of a line: it completes the record (R36, R73, R74) or defers it
(R37). -/

namespace Sys2Proof.AcceptedAnswers

-- Theorems elaborated side by side each hold a thread; one after another the whole text fits in memory.
set_option Elab.async false

open Sys2Proof.Machine Sys2Proof.Safety Sys2Proof.Laws Sys2Proof.TableMoves

section Accepted

variable {s : State} {b : Branch} {x : Exchange} {w : Word} {t : Telegram} {i : SlotId} {r : Record}

/-- An accepted answer is reported for the attempt's record, and the line settles (R112, R117). -/
theorem branchTelegram_accepted (h : Hears s b t) (hst : (s.line b).state = .listening x w)
    (hj : x.judge s.ownAddress t = .accept) (hx : x.record = some i) :
    exec (.branchTelegram b t) s = .next ((s.settle b).reportAnswer i t) := by
  rw [branchTelegram_heard h]
  simp only [State.branchTake, hst, hj, State.acceptAnswer, hx]

theorem reportAnswer_ans (hr : s.record i = some r) (ho : r.activeState = some .onLine)
    (hk : t.kind = .ans) : s.reportAnswer i t = s.complete i (.ans t.body) := by
  simp only [State.reportAnswer, hr, ho, if_true, hk]

theorem reportAnswer_fault (hr : s.record i = some r) (ho : r.activeState = some .onLine)
    (hk : t.kind = .fault) : s.reportAnswer i t = s.complete i (s.faultResult r t) := by
  simp only [State.reportAnswer, hr, ho, if_true, hk]

theorem reportAnswer_held (hr : s.record i = some r) (ho : r.activeState = some .onLine)
    (hk : t.kind = .held) : s.reportAnswer i t = s.defer i r
      (.collect { address := t.source, ticket := t.code, opening := r.branchSeq.getD t.seq }) := by
  simp only [State.reportAnswer, hr, ho, if_true, hk]

theorem reportAnswer_wait (hr : s.record i = some r) (ho : r.activeState = some .onLine)
    (hk : t.kind = .wait) : s.reportAnswer i t = s.defer i r r.action := by
  simp only [State.reportAnswer, hr, ho, if_true, hk]

end Accepted

/-! ### The result of a FAULT -/

section FaultResult

variable {s : State} {r : Record} {t : Telegram}

theorem deviceDetail_high (p : Profile) {reason : Octet} (h : 16 ≤ reason.toNat) :
    p.deviceDetail reason = reason := if_neg (by omega)

theorem deviceDetail_low (p : Profile) {reason : Octet} {n : Fin 16} (h : reason.toNat = n.val) :
    p.deviceDetail reason = p.faults.get n := by
  have low : reason.toNat < 16 := h ▸ n.isLt
  have entry : Fin.ofNat 16 reason.toNat = n := Fin.ext (by rw [Fin.val_ofNat, h, Nat.mod_eq_of_lt n.isLt])
  rw [Profile.deviceDetail, if_pos low, entry]

theorem capturedProfile_of_entry {e : DirEntry}
    (h : (s.bank r.bank).directory.get r.dirSlot = some e) :
    s.capturedProfile r = (s.bank r.bank).profiles.get e.profile := by
  simp only [State.capturedProfile, h]

theorem faultResult_leaf (h : r.kind = .leaf) :
    s.faultResult r t = .fault 0x08 (some ((s.capturedProfile r).deviceDetail t.code)) := by
  simp only [State.faultResult, h]; rfl

/-- The downstream bridge has lost the record that it was asked for (R74). -/
theorem faultResult_lost {link : CollectLink} (h : r.kind = .relay) (ha : r.action = .collect link)
    (hc : t.code = 0x06) : s.faultResult r t = .fault 0x0E none := by
  have lost : t.code = Reason.noTicket.octet := hc
  simp only [State.faultResult, h, ha, lost, if_true]; rfl

theorem faultResult_relay (h : r.kind = .relay) (hc : r.action = .ask ∨ t.code ≠ 0x06) :
    s.faultResult r t = .fault t.code t.body.head? := by
  cases ha : r.action with
  | ask => simp only [State.faultResult, h, ha]
  | collect link =>
    have other : t.code ≠ Reason.noTicket.octet := hc.resolve_left (by simp [ha])
    simp only [State.faultResult, h, ha, if_neg other]

end FaultResult

/-- Settles O36: the result of an ANS, and of a FAULT by the kind of its station. -/
theorem acceptedAnswerCompletesRecord : Obligations.AcceptedAnswerCompletesRecord := by
  intro s b x w t i r h hst hj hx hr ho completed run
  have reported : run = .next ((s.settle b).reportAnswer i t) := branchTelegram_accepted h hst hj hx
  have faulted (hk : t.kind = .fault) : run = .next (completed (s.faultResult r t)) :=
    reported.trans (congrArg _ (reportAnswer_fault hr ho hk))
  refine ⟨fun hk => reported.trans (congrArg _ (reportAnswer_ans hr ho hk)),
    fun hk leaf high => ?_, fun hk leaf reason e low entry => ?_, fun hk relay => ⟨?_, fun other => ?_⟩⟩
  · rw [faulted hk, faultResult_leaf leaf, deviceDetail_high _ high]
  · rw [faulted hk, faultResult_leaf leaf, deviceDetail_low _ low, capturedProfile_of_entry entry]
  · rintro ⟨link, hl⟩ lost
    rw [faulted hk, faultResult_lost relay hl lost]
  · rw [faulted hk, faultResult_relay relay other]

/-- Settles O37: both answers defer, and differ in the action that they leave. -/
theorem heldAndWaitDeferRecord : Obligations.HeldAndWaitDeferRecord := by
  intro s b x w t i r seq lifetime h hst hj hx hr hp hb hseq deferred
  have ho : r.activeState = some .onLine := activeState_of_phase hp
  have settled : (s.settle b).record i = some r := hr
  have defers (action : Action) : (s.settle b).defer i r action = deferred action := by
    have interval : ((s.settle b).line r.branch).settings = (s.line b).settings := by simp [hb, State.settle]
    rw [State.defer, interval, withActive_of_active hp]
    rfl
  rw [branchTelegram_accepted h hst hj hx]
  refine ⟨fun hk => ?_, fun hk => ?_⟩
  · rw [reportAnswer_held settled ho hk, defers, hseq]; rfl
  · rw [reportAnswer_wait settled ho hk, defers]

end Sys2Proof.AcceptedAnswers

/-! SUPPORT. RETIRE in DRAINING (R44, R91, R92): the records of the DRAINING bank complete, and then each
controller looks for a claimant. -/

namespace Sys2Proof.Retirement

-- Theorems elaborated side by side each hold a thread; one after another the whole text fits in memory.
set_option Elab.async false

open Sys2Proof.Machine Sys2Proof.Safety Sys2Proof.Laws Sys2Proof.TableMoves
open Sys2Proof.RecordEvents Sys2Proof.SetCompletion

/-! ### The look of every controller -/

/-- A record that a controller takes, with its branch sequence: its own, or the next of the line (R35, R108). -/
def takenRecord (ln : BranchLine) (r : Record) (life : Word) : Record :=
  onLineRecord r life (r.branchSeq.getD (ln.seq + 1))

/-- The look changes no record but one of its queue, which it takes. -/
theorem look_record_taken (s : State) (b : Branch) (j : SlotId) :
    (s.look b).record j = s.record j ∨
      ∃ r life, s.record j = some r ∧ r.phase = .active .queued life ∧ j ∈ (s.line b).queue ∧
        (s.look b).record j = some (takenRecord (s.line b) r life) := by
  obtain ⟨h, -⟩ | ⟨bc, -, -, h⟩ | ⟨_, i, _, -, -, hq, -, he, h⟩ := look_cases s b
  · exact .inl (by rw [h])
  · exact .inl (by simp [h, State.takeBroadcast])
  · obtain ⟨r, hr, ha, -⟩ := (eligible_iff s i).mp he
    obtain ⟨life, hp⟩ := (activeState_eq_some r .queued).mp ha
    by_cases hj : j = i
    · subst hj
      refine .inr ⟨r, life, hr, hp, by simp [hq], ?_⟩
      rw [h, takeRecord_record hr, if_pos rfl, withActive_of_active hp]
      rfl
    · exact .inl (by simp [h, takeRecord_record hr, hj])

/-- A controller among those that have looked has taken the record in a slot. -/
def Taken (s : State) (looked : List Branch) (i : SlotId) (o : Option Record) : Prop :=
  ∃ r life, s.record i = some r ∧ r.branch ∈ looked ∧ r.phase = .active .queued life ∧
    o = some (takenRecord (s.line r.branch) r life)

/-- Each controller takes at most a record of its own queue, which no other has taken. -/
theorem lookAll_record {s : State} (h : QueueHoldsQueued s) (i : SlotId) :
    s.lookAll.record i = s.record i ∨ Taken s (List.finRange 4) i (s.lookAll.record i) := by
  have key : ∀ l : List Branch, l.Nodup →
      (∀ b, b ∉ l → (l.foldl State.look s).line b = s.line b) ∧
      ∀ i, (l.foldl State.look s).record i = s.record i ∨
        Taken s l i ((l.foldl State.look s).record i) := by
    intro l
    induction l using List.reverseRecOn with
    | nil => exact fun _ => ⟨fun _ _ => rfl, fun _ => .inl rfl⟩
    | append_singleton l b ih =>
      intro hn
      rw [List.foldl_concat]
      obtain ⟨lines, records⟩ := ih (List.nodup_append.mp hn).1
      have new : b ∉ l := fun hb => (List.nodup_append.mp hn).2.2 b hb b (List.mem_singleton_self b) rfl
      generalize l.foldl State.look s = u at lines records ⊢
      refine ⟨fun c hc => ?_, fun i => ?_⟩
      · simp only [List.mem_append, List.mem_singleton, not_or] at hc
        rw [look_line_of_ne u hc.2, lines c hc.1]
      obtain same | ⟨r, life, hr, hp, hq, taken⟩ := look_record_taken u b i
      · rw [same]
        refine (records i).imp id ?_
        rintro ⟨r, life, hr, hb, hp, ho⟩
        exact ⟨r, life, hr, List.mem_append_left _ hb, hp, ho⟩
      · rw [lines b new] at hq taken
        obtain stands | ⟨q, life', -, -, -, ho⟩ := records i
        · rw [hr] at stands
          obtain ⟨-, rfl⟩ := (stands_some _ _ _).mp (stands ▸ (queue_mem h b i).mp hq)
          exact .inr ⟨r, life, stands.symm, by simp, hp, taken⟩
        · obtain rfl := Option.some.inj (hr.symm.trans ho)
          simp [takenRecord] at hp
  exact (key _ (List.nodup_finRange 4)).2 i

/-! ### The records of the DRAINING bank -/

/-- The records that RETIRE revokes. -/
def drains (s : State) (r : Record) : Bool := r.bank == s.live.other

/-- The state after RETIRE has revoked the records of the DRAINING bank. -/
def retired (s : State) : State := s.completeAll (drains s) (.fault 0x0F none)

theorem hits_drains (s : State) : hits s (drains s) = revokes s := by
  funext i
  have draining : ∀ r : Record, drains s r = (r.bank != s.live) := fun r => by
    rw [Bool.eq_iff_iff, drains, beq_iff_eq, bne_iff_ne, BankId.ne_iff_eq_other]
  simp only [hits, revokes, draining]

/-- Every record of the DRAINING bank has departed, and the re-seed starts (R91). -/
theorem retired_role {s : State} (hd : DrainCounted s) (hr : s.otherRole = .draining) :
    (retired s).drainCount = 0 ∧ (retired s).otherRole = .reseeding := by
  obtain ⟨⟨count, role⟩, live, change⟩ := completeAll_keeps
    (fun u => DrainCounted u ∧ u.live = s.live ∧ (u.otherRole = .draining ∨ u.otherRole = .reseeding))
    (drains s) (.fault 0x0F none) ⟨hd, rfl, .inl hr⟩ fun u i r hu hr ha _ => by
      obtain ⟨hd, live, change⟩ := hu
      refine ⟨complete_drainCounted i _ hd, by simp [live], ?_⟩
      rw [complete_eq _ hr ha]
      dsimp only
      split
      · exact .inr rfl
      · exact change
  have none_left : (retired s).activeIn s.live.other = 0 := by
    rw [activeIn_eq_zero]
    intro i r hr ha hb
    rw [retired, completeAll_record] at hr
    obtain ⟨q, -, rfl⟩ := Option.map_eq_some_iff.mp hr
    split at ha
    · simp at ha
    · rename_i spared
      rw [if_neg spared] at hb
      exact spared (by simp [ha, drains, hb])
  have zero : (retired s).drainCount = 0 := count.trans (by rw [live]; exact none_left)
  have stopped : (retired s).otherRole ≠ .draining := fun h => (role.mp h).ne' zero
  exact ⟨zero, change.resolve_left stopped⟩

theorem retired_attn {s : State} (hd : DrainCounted s) (hr : s.otherRole = .draining) :
    (retired s).attn = true := by
  have some_active : s.activeIn s.live.other ≠ 0 := by
    rw [← hd.1]; exact (hd.2.mp hr).ne'
  have completes : (s.someRecord fun r => r.isActive && drains s r) = true := by
    rw [← Bool.not_eq_false, someRecord_false_iff, ← countRecords_eq_zero]
    exact some_active
  rw [retired, completeAll_attn, completes, Bool.or_true]

theorem retired_rest {s : State} (hd : DrainCounted s) (hr : s.otherRole = .draining) :
    ∃ slots lines, retired s =
      { s with slots := slots, lines := lines, attn := true, otherRole := .reseeding, drainCount := 0 } := by
  obtain ⟨slots, lines, attn, role, count, rest⟩ := completeAll_rest (s := s) (drains s) (.fault 0x0F none)
  obtain ⟨zero, reseeding⟩ := retired_role hd hr
  obtain rfl : attn = true := (congrArg State.attn rest).symm.trans (retired_attn hd hr)
  obtain rfl : role = .reseeding := (congrArg State.otherRole rest).symm.trans reseeding
  obtain rfl : count = 0 := (congrArg State.drainCount rest).symm.trans zero
  exact ⟨slots, lines, rest⟩

/-- A revoked record is DONE, and every other stands (R44). -/
theorem retired_record {s : State} {i : SlotId} {r : Record} (hr : s.record i = some r) :
    (retired s).record i = some (if r.isActive = true ∧ r.bank ≠ s.live then
      r.completed (.fault 0x0F none) s.holdTime else r) := by
  rw [retired, completeAll_record, hr, Option.map_some]
  simp only [drains, Bool.and_eq_true, beq_iff_eq, BankId.ne_iff_eq_other]

theorem retired_line {s : State} (hq : QueueHoldsQueued s) (ho : OnLineIsAttempt s) (b : Branch) :
    (retired s).line b =
      { s.line b with
        queue := (s.line b).queue.filter fun i => !revokes s i
        state := droppedState (revokes s) (s.line b).state } := by
  rw [retired, completeAll_line, completeAll_queue _ _ hq, completeAll_state _ _ ho, hits_drains]

theorem retired_queueHolds {s : State} (h : QueueHoldsQueued s) : QueueHoldsQueued (retired s) :=
  completeAll_keeps QueueHoldsQueued _ _ h fun _ i _ hu _ _ _ => complete_queueHolds i _ hu

/-- What the controllers' look after the revocation leaves. -/
theorem lookAll_retired_frame {s : State} (hd : DrainCounted s) (hr : s.otherRole = .draining) :
    (retired s).lookAll.live = s.live ∧ (retired s).lookAll.generation = s.generation ∧
    (retired s).lookAll.bankA = s.bankA ∧ (retired s).lookAll.bankB = s.bankB ∧
    (retired s).lookAll.trunkCounters = s.trunkCounters ∧
    (retired s).lookAll.otherRole = .reseeding ∧ (retired s).lookAll.drainCount = 0 ∧
    (retired s).lookAll.attn = true := by
  obtain ⟨slots, lines, rest⟩ := retired_rest hd hr
  simp [rest]

theorem lookAll_retired_issue (s : State) (i : SlotId) : (retired s).lookAll.issue i = s.issue i :=
  calc (retired s).lookAll.issue i
    _ = (retired s).issue i := foldl_keeps (fun s => s.issue i) (fun s b => look_issue s b i) _ _
    _ = s.issue i := completeAll_issue _ _ _ i

/-- A record that a controller takes after the revocation is one of the LIVE bank. -/
theorem lookAll_retired_record {s : State} (hq : QueueHoldsQueued s) (ho : OnLineIsAttempt s) (i : SlotId) :
    (retired s).lookAll.record i = (retired s).record i ∨
    ∃ r life, s.record i = some r ∧ r.bank = s.live ∧ r.phase = .active .queued life ∧
      (retired s).lookAll.record i = some (takenRecord (s.line r.branch) r life) := by
  refine (lookAll_record (retired_queueHolds hq) i).imp id ?_
  rintro ⟨r, life, hr, -, hp, taken⟩
  rw [taken]
  have seq : takenRecord ((retired s).line r.branch) r life = takenRecord (s.line r.branch) r life := by
    rw [retired_line hq ho]; rfl
  cases hs : s.record i with
  | none => rw [retired, completeAll_record, hs] at hr; cases hr
  | some q =>
    rw [retired_record hs, Option.some_inj] at hr
    split at hr
    · rw [← hr] at hp; simp at hp
    · rename_i spared
      subst hr
      refine ⟨q, life, rfl, ?_, hp, congrArg some seq⟩
      by_contra hb
      exact spared ⟨isActive_of_phase hp, hb⟩

/-! ### The operation -/

theorem manage_retire (s : State) (source seq : Octet) :
    s.manage (ownRequest s source seq 0x87 []) =
      (opRetire s []).2.answerReply (ownRequest s source seq 0x87 []) (opRetire s []).1 := rfl

theorem opRetire_of_idle {s : State} (h : s.otherRole ≠ .draining) : opRetire s [] = (.ans [0], s) := by
  cases hr : s.otherRole with
  | draining => exact absurd hr h
  | _ => simp [opRetire, withEmptyBody, hr]

theorem opRetire_of_draining {s : State} (hd : DrainCounted s) (h : s.otherRole = .draining) :
    opRetire s [] = (.ans [octetOf s.drainCount], (retired s).lookAll) := by
  rw [hd.1]
  simp only [opRetire, withEmptyBody, List.isEmpty_nil, if_true, h]
  rfl

/-- Settles O25: the revoked records complete, and then the controllers look. -/
theorem retireRevokesDrainingRecords : Obligations.RetireRevokesDrainingRecords := by
  intro s source seq hready hs
  have taken : exec (.retire source seq []) s = .next (s.manage (ownRequest s source seq 0x87 [])) :=
    takeOnTrunk_own hready hs rfl
  rw [taken, manage_retire]
  refine ⟨fun idle => by rw [opRetire_of_idle idle]; rfl, fun draining hd hq ho => ?_⟩
  rw [opRetire_of_draining hd draining]
  obtain ⟨slots, lines, rest⟩ := retired_rest hd draining
  have records := lookAll_retired_record hq ho
  have issues := lookAll_retired_issue s
  obtain ⟨live, generation, bankA, bankB, counters, role, count, attn⟩ := lookAll_retired_frame hd draining
  have own : (retired s).lookAll.ownAddress = s.ownAddress := by simp [retired]
  refine ⟨retired s, _, rfl, ?_⟩
  change _ = answering (retired s).lookAll _ ∧ _
  generalize (retired s).lookAll = t at *
  refine ⟨by simp only [State.answerReply, own]; rfl, by rw [rest], fun i => ⟨by simp [retired],
    fun hr => ?_, fun r hr => ⟨fun ha hb => ?_, fun spared => ?_⟩⟩, fun b => ?_,
    live, generation, bankA, bankB, counters, role, count, attn, fun i => ⟨issues i, records i⟩⟩
  · rw [retired, completeAll_record, hr]; rfl
  · rw [retired_record hr, if_pos ⟨ha, hb⟩]; rfl
  · rw [retired_record hr, if_neg]
    rintro ⟨ha, hb⟩
    exact spared.elim (by simp [ha]) hb
  · rw [retired_line hq ho]
    cases (s.line b).state with
    | sending a => cases a <;> rfl
    | _ => rfl

end Sys2Proof.Retirement

/-! SUPPORT. The configuration: the banks with the role of LIVE, the own address and the trunk settings.
Only a reset, the writing of the other bank, a COMMIT and a write of the trunk settings change it, so a
predicate of it that those keep is kept by every step (R54, R79, R82, R88, R93, R129, R141). -/

namespace Sys2Proof.Configuration

-- Theorems elaborated side by side each hold a thread; one after another the whole text fits in memory.
set_option Elab.async false

open Sys2Proof.Machine Sys2Proof.Safety Sys2Proof.Laws

/-! ### What changes the configuration -/

/-- Two states with the same configuration. -/
structure SameConfig (s t : State) : Prop where
  ownAddress : t.ownAddress = s.ownAddress := by simp
  live : t.live = s.live := by simp
  bankA : t.bankA = s.bankA := by simp
  bankB : t.bankB = s.bankB := by simp
  holdTime : t.holdTime = s.holdTime := by simp
  lingerTime : t.lingerTime = s.lingerTime := by simp

theorem SameConfig.bank {s t : State} (h : SameConfig s t) (k : BankId) : t.bank k = s.bank k := by
  cases k with
  | a => exact h.bankA
  | b => exact h.bankB

theorem SameConfig.liveBank {s t : State} (h : SameConfig s t) : t.liveBank = s.liveBank := by
  rw [State.liveBank, State.liveBank, h.live, h.bank]

/-- The events that change the configuration. A predicate of the configuration that each of them keeps
is kept by every event. -/
structure KeptByConfigEvents (P : State → Prop) : Prop where
  same : ∀ {s t}, P s → SameConfig s t → P t
  hardReset : ∀ s, P s → P s.hardReset
  leaveReset : ∀ s a r, P s → P (s.leaveReset a r)
  copied : ∀ s, P s → P (s.setBank s.live.other s.liveBank)
  slot : ∀ s i e, P s → (∀ f, e = some f → entryInRange f = true) →
    P (s.setBank s.live.other (s.otherBank.setSlot i e))
  profile : ∀ s p edit, P s → P (s.setBank s.live.other (s.otherBank.editProfile p edit))
  promote : ∀ s, P s → s.otherBank.duplicateSlot = none →
    s.otherBank.conflictSlot s.ownAddress = none → P s.promote
  trunk : ∀ s hold linger, P s → within 100 60000 hold.toNat = true →
    within 100 10000 linger.toNat = true → P { s with holdTime := hold, lingerTime := linger }

section Kept

variable {P : State → Prop}

theorem effect_keepsConfig (k : KeptByConfigEvents P) {s u : State} (hs : P s) (he : Effect s u) :
    P u := by
  cases he with
  | slot i e _ fits => exact k.slot s i e hs fits
  | profile p edit _ => exact k.profile s p edit hs
  | promote _ single notOwn => exact k.promote s hs single notOwn
  | trunk hold linger holdFits lingerFits => exact k.trunk s hold linger hs holdFits lingerFits
  | _ => exact k.same hs {}

theorem trunkTake_keepsConfig (k : KeptByConfigEvents P) {s : State} (t : Telegram) (hs : P s) :
    P (s.trunkTake t) := by
  obtain e | e | e | ⟨-, -, -, -, d, en, -, e⟩ | ⟨-, -, -, e⟩ | ⟨-, -, -, e⟩ | ⟨-, -, -, -, e⟩ :=
    trunkTake_cases s t <;> rw [e]
  · exact hs
  · exact k.same hs {}
  · exact k.same hs {}
  · exact k.same hs {}
  · exact manage_keeps P t (fun u he => effect_keepsConfig k hs he) (fun u a hu => k.same hu {})
      (fun u c hu => k.same hu {})
  · exact k.same hs {}
  · exact k.same hs {}

/-- A restart re-seeds the other bank where it was not STAGED, and leaves the configuration else (R97,
R162). -/
theorem restartNow_config (s : State) : SameConfig s s.restartNow ∨
    SameConfig (s.setBank s.live.other s.liveBank) s.restartNow := by
  cases h : s.otherRole with
  | staged => left; constructor <;> simp [State.restartNow, h]
  | draining => right; constructor <;> simp [State.restartNow, h]
  | reseeding => right; constructor <;> simp [State.restartNow, h]

theorem answerSent_keepsConfig (k : KeptByConfigEvents P) {s : State} (hs : P s) :
    P s.answerSent := by
  simp only [State.answerSent]
  split
  · have ended : P (({ s with answer := .empty } : State).endTransmission 0) := k.same hs {}
    split
    · obtain h | h := restartNow_config (({ s with answer := .empty } : State).endTransmission 0)
      · exact k.same ended h
      · exact k.same (k.copied _ ended) h
    · exact ended
  all_goals exact hs

theorem reseeded_keepsConfig (k : KeptByConfigEvents P) {s : State} (hs : P s) : P s.reseeded := by
  simp only [State.reseeded]
  split
  · exact k.same (k.copied s hs) {}
  all_goals exact hs

theorem keptByEvents_of_config (k : KeptByConfigEvents P) : KeptByEvents P where
  choice _ _ h := k.same h {}
  pin _ h := k.hardReset _ (k.same h {})
  supply _ h := k.hardReset _ (k.same h {})
  pinRelease _ a r h := k.leaveReset _ a r (k.same h {})
  supplyRelease _ a r h := k.leaveReset _ a r (k.same h {})
  turnaround _ _ h := k.same h {}
  receive _ _ _ h _ _ := k.same h {}
  check _ _ h := k.same h {}
  torn _ _ h := k.same h {}
  malformed _ _ h := k.same h {}
  echo _ _ _ _ _ h _ := k.same h {}
  trunk _ t h _ _ := trunkTake_keepsConfig k t h
  branch _ _ _ h _ _ := k.same h {}
  send _ h := k.same h {}
  sent _ h := answerSent_keepsConfig k h
  done _ _ h := k.same h {}
  mismatch _ _ h := k.same h {}
  window _ _ h := k.same h {}
  settled _ _ h := k.same h {}
  lifetime _ _ h := k.same h {}
  wait _ _ h := k.same h {}
  hold _ _ h := k.same h {}
  linger _ _ h := k.same h {}
  reseed _ h := reseeded_keepsConfig k h

/-- What the events of the configuration keep, every step keeps. -/
theorem step_keepsConfig (k : KeptByConfigEvents P) {s t : State} (hs : P s)
    (h : step s = .next t) : P t :=
  step_keeps (keptByEvents_of_config k) (fun _ _ h => k.same h {}) (fun _ h => k.same h {}) hs h

end Kept

/-! ### The configuration after a reset -/

theorem hardReset_bank (s : State) (k : BankId) : s.hardReset.bank k = resetBank := by
  cases k <;> rfl

/-- A release leaves the part held, or with the configuration of hard reset and the sampled address
(R129, R186). -/
theorem leaveReset_cases (s : State) (a : BitVec 6) (r : BitVec 3) : s.leaveReset a r = s ∨
    SameConfig (State.atReset (strapAddress a) (strapRate r)) (s.leaveReset a r) := by
  simp only [State.leaveReset]
  split
  · exact .inl rfl
  · exact .inr {}

theorem resetBank_directory (i : Fin 64) : resetBank.directory.get i = none := by simp [resetBank]

/-! ### The LIVE directory -/

/-- A directory of empty slots holds no address at all. -/
theorem emptyDirectory_sound {k : Bank} (h : ∀ i, k.directory.get i = none) (own : Octet) :
    k.duplicateSlot = none ∧ k.conflictSlot own = none := by
  have empty : ∀ i, k.logicalOf i = none := fun i => by rw [Bank.logicalOf, h i]; rfl
  simp [Bank.duplicateSlot, Bank.conflictSlot, empty]

theorem resetBank_sound (own : Octet) :
    resetBank.duplicateSlot = none ∧ resetBank.conflictSlot own = none :=
  emptyDirectory_sound resetBank_directory own

theorem liveDirectorySound_of_same {s t : State} (hs : LiveDirectorySound s)
    (bank : t.liveBank = s.liveBank) (own : t.ownAddress = s.ownAddress) : LiveDirectorySound t := by
  rwa [LiveDirectorySound, bank, own]

theorem atReset_liveDirectorySound (a : Octet) (r : RateCode) :
    LiveDirectorySound (State.atReset a r) := resetBank_sound a

/-- The other bank may be written with any content. -/
theorem setOther_liveDirectorySound {s : State} (hs : LiveDirectorySound s) (c : Bank) :
    LiveDirectorySound (s.setBank s.live.other c) :=
  liveDirectorySound_of_same hs (by simp [State.liveBank]) (by simp)

theorem promote_bank (s : State) (k : BankId) : s.promote.bank k = s.bank k := by simp

theorem promote_liveBank (s : State) : s.promote.liveBank = s.otherBank := promote_bank s _

theorem liveDirectorySound_keptByConfigEvents : KeptByConfigEvents LiveDirectorySound where
  same hs h := liveDirectorySound_of_same hs h.liveBank h.ownAddress
  hardReset s _ := by
    rw [LiveDirectorySound, State.liveBank, hardReset_bank]
    exact resetBank_sound _
  leaveReset s a r hs := by
    obtain h | h := leaveReset_cases s a r
    · rwa [h]
    · exact liveDirectorySound_of_same (atReset_liveDirectorySound _ _) h.liveBank h.ownAddress
  copied _ hs := setOther_liveDirectorySound hs _
  slot _ _ _ hs _ := setOther_liveDirectorySound hs _
  profile _ _ _ hs := setOther_liveDirectorySound hs _
  promote s _ single notOwn := by
    rw [LiveDirectorySound, promote_liveBank]
    exact ⟨single, by simpa using notOwn⟩
  trunk _ _ _ hs _ _ := hs

/-- Settles O55: the LIVE bank's content changes only by a reset, which empties it, and by a COMMIT,
whose checks give the invariant of the bank that it makes LIVE. -/
theorem liveDirectoryStaysSound : Obligations.LiveDirectoryStaysSound :=
  fun _ _ hs h => step_keepsConfig liveDirectorySound_keptByConfigEvents hs h

/-! ### The ranges of the configuration -/

/-- The directory fields of a bank lie in their ranges (R51). -/
def BankInRange (c : Bank) : Prop :=
  ∀ (i : Fin 64) (e : DirEntry), c.directory.get i = some e → entryInRange e = true

theorem resetBank_inRange : BankInRange resetBank := fun i e h => by
  rw [resetBank_directory] at h; cases h

theorem setSlot_inRange {c : Bank} (hc : BankInRange c) (i : Fin 64) {e : Option DirEntry}
    (fits : ∀ f, e = some f → entryInRange f = true) : BankInRange (c.setSlot i e) := by
  intro j f hf
  simp only [Bank.setSlot, get_set] at hf
  split at hf
  · exact fits f hf
  · exact hc j f hf

/-- The banks, the trunk settings and the own address in their ranges (R51, R129, R141). -/
structure ConfigInRange (s : State) : Prop where
  directory : ∀ k, BankInRange (s.bank k)
  hold : within 100 60000 s.holdTime.toNat = true
  linger : within 100 10000 s.lingerTime.toNat = true
  ownAddress : OwnAddressFromStraps s

theorem ConfigInRange.of_same {s t : State} (hs : ConfigInRange s) (h : SameConfig s t) :
    ConfigInRange t where
  directory k := h.bank k ▸ hs.directory k
  hold := h.holdTime ▸ hs.hold
  linger := h.lingerTime ▸ hs.linger
  ownAddress := by rw [OwnAddressFromStraps, h.ownAddress]; exact hs.ownAddress

theorem ConfigInRange.setBank {s : State} (hs : ConfigInRange s) (k : BankId) {c : Bank}
    (hc : BankInRange c) : ConfigInRange (s.setBank k c) where
  directory j := by
    rw [setBank_bank]
    split
    · exact hc
    · exact hs.directory j
  hold := by simpa using hs.hold
  linger := by simpa using hs.linger
  ownAddress := by simpa [OwnAddressFromStraps] using hs.ownAddress

theorem strapAddress_fromStraps (a : BitVec 6) :
    within 1 63 (strapAddress a).toNat = true ∨ strapAddress a = 250 := by
  revert a; decide

theorem atReset_configInRange {a : Octet} (r : RateCode)
    (own : within 1 63 a.toNat = true ∨ a = 250) : ConfigInRange (State.atReset a r) where
  directory k := by cases k <;> exact resetBank_inRange
  hold := show within 100 60000 defaultHold.toNat = true by decide
  linger := show within 100 10000 defaultLinger.toNat = true by decide
  ownAddress := own

theorem configInRange_keptByConfigEvents : KeptByConfigEvents ConfigInRange where
  same hs h := hs.of_same h
  hardReset s hs := (atReset_configInRange (s.framer 0).rate hs.ownAddress).of_same
    { ownAddress := rfl, live := rfl, bankA := rfl, bankB := rfl, holdTime := rfl, lingerTime := rfl }
  leaveReset s a r hs := by
    obtain h | h := leaveReset_cases s a r
    · rwa [h]
    · exact (atReset_configInRange _ (strapAddress_fromStraps a)).of_same h
  copied s hs := hs.setBank _ (hs.directory s.live)
  slot s i _ hs fits := hs.setBank _ (setSlot_inRange (hs.directory s.live.other) i fits)
  profile s _ _ hs := hs.setBank _ (hs.directory s.live.other)
  promote s hs _ _ :=
    { directory := fun k => by rw [promote_bank]; exact hs.directory k
      hold := hs.hold
      linger := hs.linger
      ownAddress := hs.ownAddress }
  trunk s _ _ hs hold linger :=
    { directory := hs.directory, hold := hold, linger := linger, ownAddress := hs.ownAddress }

end Sys2Proof.Configuration

/-! SUPPORT. The controllers of the branch lines: their settings, their error counts and their pending
rates in range and in step with each other (R98 to R100, R122 to R124). Most operations leave them as
they stand; the others write one line. -/

namespace Sys2Proof.ControllerRanges

-- Theorems elaborated side by side each hold a thread; one after another the whole text fits in memory.
set_option Elab.async false

open Sys2Proof.Machine Sys2Proof.Safety Sys2Proof.Laws Sys2Proof.TableMoves
open Sys2Proof.Configuration

/-! ### A controller that stands as it stood -/

theorem isDown_iff (st : LineState) : st.isDown = true ↔ st = .off ∨ st = .faulted := by
  cases st <;> simp [LineState.isDown]

theorem isDown_eq_false_iff (st : LineState) : st.isDown = false ↔ st ≠ .off ∧ st ≠ .faulted := by
  rw [← Bool.not_eq_true, isDown_iff, not_or]

/-- The settings, the pending rate and the error count of a controller stand, and it is OFF or FAULTED
where it was. -/
structure Stands (ln ln' : BranchLine) : Prop where
  settings : ln'.settings = ln.settings
  pendingRate : ln'.pendingRate = ln.pendingRate
  errors : ln'.errors = ln.errors
  off : ln'.state = .off ↔ ln.state = .off
  faulted : ln'.state = .faulted ↔ ln.state = .faulted

@[simp] theorem Stands.refl (ln : BranchLine) : Stands ln ln := ⟨rfl, rfl, rfl, .rfl, .rfl⟩

theorem Stands.trans {x y z : BranchLine} (h : Stands x y) (h' : Stands y z) : Stands x z :=
  ⟨h'.settings.trans h.settings, h'.pendingRate.trans h.pendingRate, h'.errors.trans h.errors,
    h'.off.trans h.off, h'.faulted.trans h.faulted⟩

/-- A controller goes from one state to another, neither of them OFF or FAULTED. -/
theorem Stands.of_up {ln ln' : BranchLine} (settings : ln'.settings = ln.settings)
    (pendingRate : ln'.pendingRate = ln.pendingRate) (errors : ln'.errors = ln.errors)
    (up : ln.state.isDown = false) (up' : ln'.state.isDown = false) : Stands ln ln' := by
  obtain ⟨off, faulted⟩ := (isDown_eq_false_iff _).mp up
  obtain ⟨off', faulted'⟩ := (isDown_eq_false_iff _).mp up'
  exact ⟨settings, pendingRate, errors, iff_of_false off' off, iff_of_false faulted' faulted⟩

/-- Every controller stands as it stood, and every framer at its rate. -/
structure SameStanding (s t : State) : Prop where
  line : ∀ b, Stands (s.line b) (t.line b) := by simp
  rate : ∀ b, (t.framer (lineOf b)).rate = (s.framer (lineOf b)).rate := by simp

theorem SameStanding.refl (s : State) : SameStanding s s := {}

theorem SameStanding.of_fields {s t : State} (lines : t.lines = s.lines)
    (framers : t.framers = s.framers) : SameStanding s t :=
  ⟨fun b => by simp [State.line, lines], fun b => by simp [State.framer, framers]⟩

theorem SameStanding.trans {s t u : State} (h : SameStanding s t) (h' : SameStanding t u) :
    SameStanding s u :=
  ⟨fun b => (h.line b).trans (h'.line b), fun b => (h'.rate b).trans (h.rate b)⟩

theorem SameStanding.setLine {s : State} {b : Branch} {ln : BranchLine}
    (h : Stands (s.line b) ln) : SameStanding s (s.setLine b ln) where
  line c := by
    by_cases hc : c = b
    · subst hc; simpa using h
    · simp [hc]

/-! ### Framers -/

theorem setMode_standing (s : State) (l : Line) (m : FramerMode) :
    SameStanding s (s.setMode l m) where
  rate b := by rw [setMode_framer]; split <;> simp_all

theorem transmit_standing (s : State) (l : Line) (t : Telegram) :
    SameStanding s (s.transmit l t) where
  rate b := by rw [transmit_framer]; split <;> simp_all

theorem endTransmission_standing (s : State) (l : Line) :
    SameStanding s (s.endTransmission l) where
  rate b := by rw [endTransmission_framer]; split <;> simp_all

/-! ### The choice of claimant -/

theorem takeBroadcast_standing {s : State} {b : Branch} (bc : Broadcast)
    (up : (s.line b).state.isDown = false) : SameStanding s (s.takeBroadcast b bc) := by
  refine (SameStanding.setLine ?_).trans (transmit_standing _ _ _)
  exact .of_up rfl rfl rfl up rfl

theorem setRecord_standing (s : State) (i : SlotId) (r : Option Record) :
    SameStanding s (s.setRecord i r) := {}

theorem takeRecord_standing {s : State} {b : Branch} {i : SlotId} {r : Record}
    (hr : s.record i = some r) (up : (s.line b).state.isDown = false) :
    SameStanding s (s.takeRecord b i) := by
  rw [takeRecord_eq hr]
  refine ((setRecord_standing s i _).trans (SameStanding.setLine ?_)).trans (transmit_standing _ _ _)
  exact .of_up (by simp) (by simp) (by simp) (by simpa using up) rfl

theorem look_standing (s : State) (b : Branch) : SameStanding s (s.look b) := by
  refine look_keeps (SameStanding s) (.refl s) (fun bc idle _ => ?_) ?_
  · exact takeBroadcast_standing bc (by rw [idle]; rfl)
  · intro _ i _ idle _ _ _ he
    obtain ⟨r, hr, -⟩ := (eligible_iff s i).mp he
    exact takeRecord_standing hr (by rw [idle]; rfl)

theorem lookAll_standing (s : State) : SameStanding s s.lookAll :=
  foldl_keeps_pred (SameStanding s) (fun u b hu => hu.trans (look_standing u b)) _ (.refl s)

theorem joinQueue_standing (s : State) (b : Branch) (i : SlotId) :
    SameStanding s (s.joinQueue b i) := by
  refine (SameStanding.setLine ?_).trans (look_standing _ b)
  exact ⟨rfl, rfl, rfl, .rfl, .rfl⟩

/-! ### Completion and the outcome of an attempt -/

theorem orphanedState_off (i : SlotId) (st : LineState) :
    (orphanedState i st = .off ↔ st = .off) ∧ (orphanedState i st = .faulted ↔ st = .faulted) := by
  cases st with
  | sending a => cases a <;> simp [orphanedState]
  | _ => simp [orphanedState]

theorem leftBy_stands (i : SlotId) (r : Record) (ln : BranchLine) : Stands ln (leftBy i r ln) where
  settings := by simp
  pendingRate := by simp
  errors := by simp
  off := by rw [leftBy_state]; split <;> simp [orphanedState_off]
  faulted := by rw [leftBy_state]; split <;> simp [orphanedState_off]

theorem complete_standing (s : State) (i : SlotId) (x : Result) : SameStanding s (s.complete i x) := by
  refine ⟨fun b => ?_, by simp⟩
  by_cases h : ∃ r, s.record i = some r ∧ r.isActive = true
  · obtain ⟨r, hr, ha⟩ := h
    rw [complete_line x hr ha]
    split
    · exact leftBy_stands i r _
    · exact .refl _
  · rw [complete_of_inactive x fun r hr => by simpa using fun ha => h ⟨r, hr, ha⟩]
    exact .refl _

theorem completeAll_standing (s : State) (p : Record → Bool) (x : Result) :
    SameStanding s (s.completeAll p x) :=
  completeAll_keeps (SameStanding s) p x (.refl s)
    fun u i _ hu _ _ _ => hu.trans (complete_standing u i x)

theorem completeEarly_standing (s : State) (i : SlotId) (x : Result) :
    SameStanding s (s.completeEarly i x) := by
  have done := complete_standing s i x
  simp only [State.completeEarly]
  split
  · exact .refl s
  · split
    · exact done.trans (look_standing _ _)
    · exact done

theorem setLineState_standing {s : State} {b : Branch} {st : LineState}
    (up : (s.line b).state.isDown = false) (up' : st.isDown = false) :
    SameStanding s (s.setLineState b st) := .setLine (.of_up rfl rfl rfl up up')

theorem settle_standing {s : State} {b : Branch} (up : (s.line b).state.isDown = false) :
    SameStanding s (s.settle b) := setLineState_standing up rfl

theorem reportFailure_standing (s : State) (i : SlotId) (f : Failure) :
    SameStanding s (s.reportFailure i f) := by
  obtain ⟨e, -⟩ | ⟨r, life, -, -, ⟨-, e⟩ | ⟨-, -, e⟩ | ⟨-, -, e⟩⟩ := reportFailure_cases s i f <;>
    rw [e]
  · exact .refl s
  · exact (setRecord_standing s i _).trans (complete_standing _ _ _)
  · exact (setRecord_standing s i _).trans (joinQueue_standing _ _ _)
  · exact setRecord_standing s i _

theorem reportAnswer_standing (s : State) (i : SlotId) (t : Telegram) :
    SameStanding s (s.reportAnswer i t) := by
  obtain ⟨e, -⟩ | ⟨r, life, -, -, ⟨x, e, -⟩ | ⟨action, e, -⟩⟩ := reportAnswer_cases s i t <;> rw [e]
  · exact .refl s
  · exact complete_standing s i x
  · exact setRecord_standing s i _

theorem countBranch_standing (s : State) (b : Branch) (c : BranchCounter) :
    SameStanding s (s.countBranch b c) := {}

theorem acceptAnswer_standing {s : State} {b : Branch} (x : Exchange) (t : Telegram)
    (up : (s.line b).state.isDown = false) : SameStanding s (s.acceptAnswer b x t) := by
  simp only [State.acceptAnswer]
  split
  · exact (settle_standing up).trans (reportAnswer_standing _ _ t)
  · exact (countBranch_standing s b _).trans (settle_standing (by simpa using up))

theorem rejectAnswer_standing {s : State} {b : Branch} (x : Exchange)
    (up : (s.line b).state.isDown = false) : SameStanding s (s.rejectAnswer b x) := by
  have settled : ∀ c, SameStanding s ((s.countBranch b c).settle b) := fun c =>
    (countBranch_standing s b c).trans (settle_standing (by simpa using up))
  simp only [State.rejectAnswer]
  split
  · exact (settled _).trans (reportFailure_standing _ _ _)
  · exact settled _

theorem branchTake_standing (s : State) (b : Branch) (t : Telegram) :
    SameStanding s (s.branchTake b t) := by
  simp only [State.branchTake]
  split
  · rename_i hst
    have up : (s.line b).state.isDown = false := by rw [hst]; rfl
    split
    · exact acceptAnswer_standing _ t up
    · exact rejectAnswer_standing _ up
    · exact countBranch_standing s b _
  · exact .refl s
  all_goals exact countBranch_standing s b _

theorem windowExpired_standing (s : State) (b : Branch) : SameStanding s (s.windowExpired b) := by
  simp only [State.windowExpired]
  split
  · rename_i hst
    have settled : SameStanding s ((s.countBranch b .noAnswer).settle b) :=
      (countBranch_standing s b _).trans (settle_standing (by simp [hst, LineState.isDown]))
    split
    · exact settled.trans (reportFailure_standing _ _ _)
    · exact settled
  all_goals exact .refl s

theorem attemptFailed_standing (s : State) (b : Branch) (a : Attempt) :
    SameStanding s (s.attemptFailed b a) := by
  simp only [State.attemptFailed]
  split
  · split
    · exact reportFailure_standing s _ _
    · exact .refl s
  · exact countBranch_standing s b _

theorem dropBroadcasts_standing (s : State) (b : Branch) : SameStanding s (dropBroadcasts s b) := by
  refine ⟨by simp, fun c => ?_⟩
  rw [← (endTransmission_standing s (lineOf b)).rate c, dropBroadcasts]
  split <;> split <;> simp only [countBranch_reads]

/-- Standing alike is kept where both states have one line's state and broadcast buffer set. -/
theorem SameStanding.discard {s t : State} (h : SameStanding s t) (b : Branch) (st : LineState)
    (bc : Option Broadcast) : SameStanding (discard s b st bc) (discard t b st bc) where
  line c := by
    rw [discard_line, discard_line]
    split
    · exact ⟨(h.line b).settings, (h.line b).pendingRate, (h.line b).errors, .rfl, .rfl⟩
    · exact h.line c
  rate := h.rate

/-- A line that goes down stands as if only its state and its broadcast buffer were set (R43, R122). -/
theorem lineDown_standing (s : State) (b : Branch) {down : LineState} (h : down.isDown = true) :
    SameStanding (discard s b down none) (s.lineDown b down) := by
  rw [lineDown_eq s b h]
  exact ((dropBroadcasts_standing s b).trans (completeAll_standing _ _ _)).discard b down none

/-! ### The trunk port and the record timers -/

@[simp] theorem admitNext_framer (s : State) (l : Line) : (admitNext s).framer l = s.framer l := rfl

theorem openRecord_standing (s : State) (i : SlotId) (r : Record) (t : Telegram) :
    SameStanding s (s.openRecord i r t) := by
  rw [openRecord_eq]
  have filled : SameStanding s (((admitNext ((s.setIssue i (s.issue i + 1)).setRecord i
      (some r))).placeAnswer (heldAnswer s i t)).countTrunk .admitted) := {}
  exact filled.trans (joinQueue_standing _ _ _)

theorem judgeRequest_standing (s : State) (d : Fin 64) (e : DirEntry) (t : Telegram) :
    SameStanding s (s.judgeRequest d e t) := by
  obtain ⟨i, -, h⟩ | ⟨reason, -, h⟩ | ⟨out, u, i, -, -, -, -, hu, h⟩ := judgeRequest_cases s d e t <;>
    rw [h]
  · exact {}
  · exact {}
  · have supplied : SameStanding s u := by
      obtain ⟨rfl, -⟩ | ⟨-, -, rfl⟩ := supply_cases hu
      · exact .refl u
      · exact setRecord_standing s i none
    exact supplied.trans (openRecord_standing u i _ t)

theorem offerBroadcast_standing (s : State) (bc : Broadcast) (b : Branch) :
    SameStanding s (s.offerBroadcast bc b) := by
  simp only [State.offerBroadcast]
  split
  · exact countBranch_standing s b _
  · refine (SameStanding.setLine ?_).trans (look_standing _ b)
    exact ⟨rfl, rfl, rfl, .rfl, .rfl⟩

theorem relayBroadcast_standing (s : State) (bc : Broadcast) :
    SameStanding s (s.relayBroadcast bc) :=
  foldl_keeps_pred (SameStanding s) (fun u b hu => hu.trans (offerBroadcast_standing u bc b)) _
    (.refl s)

theorem lifetimeExpired_standing (s : State) (i : SlotId) : SameStanding s (s.lifetimeExpired i) := by
  simp only [State.lifetimeExpired]
  split
  · exact .refl s
  · exact completeEarly_standing s i _

theorem waitExpired_standing (s : State) (i : SlotId) : SameStanding s (s.waitExpired i) := by
  have rejoined : ∀ q b, SameStanding s ((s.setRecord i q).joinQueue b i) := fun q b =>
    (setRecord_standing s i q).trans (joinQueue_standing _ b i)
  simp only [State.waitExpired]
  split
  · exact .refl s
  · split
    · exact rejoined _ _
    · exact rejoined _ _
    all_goals exact .refl s

/-! ### A controller in range -/

/-- The settings in range and the enable setting off exactly in OFF (R99), the error count bounded by
the line's state (R98, R122), and the pending rate in step with the rate in use (R100). -/
structure InRange (ln : BranchLine) (rate : RateCode) : Prop where
  settings : settingsInRange ln.settings = true
  enable : ln.settings.enable = false ↔ ln.state = .off
  errors : ln.errors ≤ 8
  faulted : ln.state = .faulted → ln.errors = 8
  up : ln.state.isDown = false → ln.errors < 8
  pendingRate : match ln.pendingRate with
    | some r => r = ln.settings.rate ∧ r ≠ rate
    | none => ln.settings.rate = rate

/-- Every controller of a branch is in range. -/
def LinesInRange (s : State) : Prop := ∀ b, InRange (s.line b) (s.framer (lineOf b)).rate

theorem InRange.of_stands {ln ln' : BranchLine} {rate : RateCode} (h : InRange ln rate)
    (hs : Stands ln ln') : InRange ln' rate where
  settings := hs.settings ▸ h.settings
  enable := by rw [hs.settings, hs.off]; exact h.enable
  errors := hs.errors ▸ h.errors
  faulted hf := hs.errors ▸ h.faulted (hs.faulted.mp hf)
  up hu := by
    rw [hs.errors]
    rw [isDown_eq_false_iff, ne_eq, hs.off, ne_eq, hs.faulted] at hu
    exact h.up ((isDown_eq_false_iff _).mpr hu)
  pendingRate := by rw [hs.pendingRate, hs.settings]; exact h.pendingRate

theorem LinesInRange.of_standing {s t : State} (h : LinesInRange s) (hs : SameStanding s t) :
    LinesInRange t := fun b => by
  rw [hs.rate b]; exact (h b).of_stands (hs.line b)

/-- One line is written. -/
theorem LinesInRange.setLine {s : State} (h : LinesInRange s) {b : Branch} {ln : BranchLine}
    (hln : InRange ln (s.framer (lineOf b)).rate) : LinesInRange (s.setLine b ln) := by
  intro c
  by_cases hc : c = b
  · subst hc; simpa using hln
  · simpa [hc] using h c

/-- A line goes down (R122, R123). -/
theorem LinesInRange.lineDown {s : State} {b : Branch} {down : LineState} (hd : down.isDown = true)
    (h : LinesInRange (discard s b down none)) : LinesInRange (s.lineDown b down) :=
  h.of_standing (lineDown_standing s b hd)

/-- The pending rate becomes the rate in use (R100). -/
theorem applyRate_inRange {s : State} (h : LinesInRange s) (b : Branch) :
    LinesInRange (s.applyRate b) := by
  cases hp : (s.line b).pendingRate with
  | none => rwa [StepAndResets.applyRate_of_none hp]
  | some r =>
    have hb := h b
    have pending := hb.pendingRate
    rw [hp] at pending
    intro c
    by_cases hc : c = b
    · subst hc
      have rate : ((s.applyRate c).framer (lineOf c)).rate = r := by simp [State.applyRate, hp]
      have line : (s.applyRate c).line c = { s.line c with pendingRate := none } := by
        simp [State.applyRate, hp]
      rw [rate, line]
      exact { hb with pendingRate := pending.1.symm }
    · have rate : ((s.applyRate b).framer (lineOf c)).rate = (s.framer (lineOf c)).rate := by
        simp [State.applyRate, hp, hc]
      have line : (s.applyRate b).line c = s.line c := by simp [State.applyRate, hp, hc]
      rw [rate, line]
      exact h c

theorem applyRate_look_inRange {s : State} (h : LinesInRange s) (b : Branch) :
    LinesInRange ((s.applyRate b).look b) :=
  (applyRate_inRange h b).of_standing (look_standing _ b)

/-! ### The events of a branch line -/

theorem settled_inRange {s : State} (h : LinesInRange s) (b : Branch) : LinesInRange (s.settled b) := by
  simp only [State.settled]
  split
  · rename_i n hst
    have up : (s.line b).state.isDown = false := by rw [hst]; rfl
    exact applyRate_look_inRange (h.of_standing (setLineState_standing up rfl)) b
  all_goals exact h

/-- The error count and the state of a line that sends are set: the count bounds as the state says (R98,
R109, R110, R122). -/
theorem InRange.setErrors {ln : BranchLine} {rate : RateCode} {a : Attempt} (h : InRange ln rate)
    (sends : ln.state = .sending a) {st : LineState} {n : Nat} {bc : Option Broadcast}
    (bound : (st.isDown = false ∧ n < 8) ∨ (st = .faulted ∧ n = 8)) :
    InRange { ln with errors := n, state := st, broadcast := bc } rate where
  settings := h.settings
  enable := by
    have on : ln.settings.enable ≠ false := fun e => by
      have off := h.enable.mp e
      rw [sends] at off; cases off
    have notOff : st ≠ .off := by
      obtain ⟨hu, -⟩ | ⟨rfl, -⟩ := bound
      · exact ((isDown_eq_false_iff st).mp hu).1
      · exact nofun
    exact iff_of_false on notOff
  errors := by dsimp only; omega
  faulted hf := by
    obtain ⟨hu, -⟩ | ⟨-, hn⟩ := bound
    · exact absurd hf ((isDown_eq_false_iff st).mp hu).2
    · exact hn
  up hu := by
    obtain ⟨-, hn⟩ | ⟨rfl, -⟩ := bound
    · exact hn
    · cases hu
  pendingRate := h.pendingRate

theorem transmissionDone_inRange {s : State} (h : LinesInRange s) (b : Branch) :
    LinesInRange (s.transmissionDone b) := by
  simp only [State.transmissionDone]
  split
  · rename_i a hst
    have ended := h.of_standing (endTransmission_standing s (lineOf b))
    generalize hu : s.endTransmission (lineOf b) = u at ended ⊢
    have sends : (u.line b).state = .sending a := by rw [← hu]; simpa using hst
    have cleared : LinesInRange (u.setLine b { u.line b with errors := 0 }) :=
      ended.setLine ((ended b).setErrors sends (.inl ⟨by rw [sends]; rfl, by omega⟩))
    have up : ∀ c, ((((u.setLine b { u.line b with errors := 0 }).countBranch b c).line
        b).state).isDown = false := fun c => by simp [sends, LineState.isDown]
    split
    · exact (cleared.of_standing (countBranch_standing _ b _)).of_standing
        (setLineState_standing (up _) rfl)
    · exact (cleared.of_standing (countBranch_standing _ b _)).of_standing (settle_standing (up _))
  all_goals exact h

theorem echoFault_inRange {s : State} (h : LinesInRange s) (b : Branch) :
    LinesInRange (s.echoFault b) := by
  simp only [State.echoFault]
  split
  · rename_i a hst
    have counted := (h.of_standing (endTransmission_standing s (lineOf b))).of_standing
      (countBranch_standing _ b .lineErrors)
    generalize hu : (s.endTransmission (lineOf b)).countBranch b .lineErrors = u at counted ⊢
    have sends : (u.line b).state = .sending a := by rw [← hu]; simpa using hst
    have below : (u.line b).errors < 8 := (counted b).up (by rw [sends]; rfl)
    split
    · rename_i more
      have settled : LinesInRange
          ((u.setLine b { u.line b with errors := (u.line b).errors + 1 }).settle b) := by
        simp only [State.settle, State.setLineState, setLine_line, if_true, setLine_setLine]
        exact counted.setLine ((counted b).setErrors sends (.inl ⟨rfl, by simpa using more⟩))
      exact settled.of_standing (attemptFailed_standing _ b a)
    · rename_i eighth
      refine LinesInRange.lineDown rfl ?_
      rw [TableMoves.discard, setLine_setLine]
      have eight : (u.line b).errors + 1 = 8 := by simp at eighth; omega
      simpa using counted.setLine ((counted b).setErrors (bc := none) sends (.inr ⟨rfl, eight⟩))
  all_goals exact h

/-! ### WRITE_LINE -/

/-- The settings of a branch as `takeSettings` writes them, in range in any state that the enable
setting agrees with (R99, R100). -/
theorem InRange.takeSettings {ln : BranchLine} {rate : RateCode} {c : Settings}
    {st : LineState} {n : Nat} {bc : Option Broadcast} (fits : settingsInRange c = true)
    (enable : c.enable = false ↔ st = .off)
    (errors : n ≤ 8) (faulted : st = .faulted → n = 8) (up : st.isDown = false → n < 8) :
    InRange { ln with
      state := st, settings := c, pendingRate := if c.rate = rate then none else some c.rate,
      broadcast := bc, errors := n } rate where
  settings := fits
  enable := enable
  errors := errors
  faulted := faulted
  up := up
  pendingRate := by by_cases hr : c.rate = rate <;> simp [hr]

/-- Enable on (R124): a line that is down enters IDLE with its error count cleared. -/
theorem enabled_inRange {s : State} (h : LinesInRange s) (b : Branch) {c : Settings}
    (fits : settingsInRange c = true) (on : c.enable = true) :
    LinesInRange ((s.takeSettings b c).enable b) := by
  simp only [State.enable]
  split
  · refine applyRate_look_inRange ?_ b
    simp only [State.takeSettings, State.setLineState, setLine_line, if_true, setLine_setLine]
    exact h.setLine (.takeSettings fits (by simp [on]) (by omega) nofun fun _ => by omega)
  · rename_i hu
    have notOff : (s.line b).state ≠ .off := by simp_all [State.takeSettings, isDown_eq_false_iff]
    exact h.setLine (.takeSettings fits (by simp [on, notOff]) (h b).errors (h b).faulted (h b).up)

theorem disabled_inRange {s : State} (h : LinesInRange s) (b : Branch) {c : Settings}
    (fits : settingsInRange c = true) (off : c.enable = false) :
    LinesInRange ((s.takeSettings b c).disable b) := by
  simp only [State.disable]
  split
  · rename_i hst
    have isOff : (s.line b).state = .off := by simpa [State.takeSettings] using hst
    exact h.setLine (.takeSettings fits (by simp [off, isOff]) (h b).errors (h b).faulted (h b).up)
  · refine LinesInRange.lineDown rfl ?_
    simp only [State.takeSettings, TableMoves.discard, setLine_line, if_true, setLine_setLine]
    exact h.setLine (.takeSettings fits (by simp [off]) (h b).errors nofun nofun)

theorem writeBranch_inRange {s : State} (h : LinesInRange s) (b : Branch) {c : Settings}
    (fits : settingsInRange c = true) : LinesInRange (s.writeBranch b c) := by
  simp only [State.writeBranch]
  split
  · rename_i on; exact enabled_inRange h b fits on
  · rename_i off; exact disabled_inRange h b fits (by simpa using off)

theorem effect_inRange {s u : State} (h : LinesInRange s) (he : Effect s u) : LinesInRange u := by
  cases he with
  | retire _ => exact (h.of_standing (completeAll_standing s _ _)).of_standing (lookAll_standing _)
  | branch b c fits => exact writeBranch_inRange h b fits
  | cancel i r _ _ => exact h.of_standing (completeEarly_standing s i _)
  | trunk hold linger _ _ => exact h.of_standing (.of_fields rfl rfl)
  | restart => exact h.of_standing (.of_fields rfl rfl)
  | _ => exact h.of_standing {}

theorem trunkTake_inRange {s : State} (h : LinesInRange s) (t : Telegram) :
    LinesInRange (s.trunkTake t) := by
  obtain e | e | e | ⟨-, -, -, -, d, en, -, e⟩ | ⟨-, -, -, e⟩ | ⟨-, -, -, e⟩ | ⟨-, -, -, -, e⟩ :=
    trunkTake_cases s t <;> rw [e]
  · exact h
  · exact h.of_standing {}
  · exact h.of_standing {}
  · exact h.of_standing (judgeRequest_standing s d en t)
  · exact manage_keeps LinesInRange t (fun u he => effect_inRange h he)
      (fun u a hu => hu.of_standing {}) (fun u c hu => hu.of_standing {})
  · exact h.of_standing {}
  · exact h.of_standing (relayBroadcast_standing s _)

/-! ### Resets -/

theorem resetLine_inRange : InRange resetLine 4 where
  settings := by decide
  enable := by decide
  errors := by decide
  faulted := nofun
  up _ := by decide
  pendingRate := rfl

theorem linesInRange_of_reset {s : State} {a : Octet} {r : RateCode}
    (lines : s.lines = (State.atReset a r).lines)
    (framers : s.framers = (State.atReset a r).framers) : LinesInRange s := fun b => by
  have rate : (s.framer (lineOf b)).rate = 4 := by
    rw [State.framer, framers]; exact StepAndResets.atReset_branchRate a r b
  have line : s.line b = resetLine := by simp [State.line, lines, State.atReset]
  rw [rate, line]
  exact resetLine_inRange

theorem hardReset_inRange (s : State) : LinesInRange s.hardReset :=
  linesInRange_of_reset (a := s.ownAddress) (r := (s.framer 0).rate) rfl rfl

theorem leaveReset_inRange {s : State} (h : LinesInRange s) (a : BitVec 6) (r : BitVec 3) :
    LinesInRange (s.leaveReset a r) := by
  simp only [State.leaveReset]
  split
  · exact h
  · exact linesInRange_of_reset (a := strapAddress a) (r := strapRate r) rfl rfl

/-- A restart clears the error count, and a line that is not OFF is IDLE after it (R128). -/
theorem restarted_inRange {ln : BranchLine} {rate : RateCode} (h : InRange ln rate) :
    InRange ln.restarted rate where
  settings := h.settings
  enable := by
    rw [show ln.restarted.settings = ln.settings from rfl, h.enable, BranchLine.restarted]
    cases ln.state <;> simp
  errors := Nat.zero_le 8
  faulted hf := by
    rw [BranchLine.restarted] at hf
    cases hs : ln.state <;> simp [hs] at hf
  up _ := Nat.zero_lt_succ 7
  pendingRate := h.pendingRate

theorem restartNow_inRange {s : State} (h : LinesInRange s) : LinesInRange s.restartNow := fun b => by
  have rate : (s.restartNow.framer (lineOf b)).rate = (s.framer (lineOf b)).rate := by
    simp only [State.restartNow, State.framer]
    split <;> simp
  have line : s.restartNow.line b = (s.line b).restarted := by
    simp only [State.restartNow, State.line]
    split <;> simp
  rw [rate, line]
  exact restarted_inRange (h b)

theorem answerSent_inRange {s : State} (h : LinesInRange s) : LinesInRange s.answerSent := by
  simp only [State.answerSent]
  split
  · have emptied : SameStanding s { s with answer := .empty } := .of_fields rfl rfl
    have ended := (h.of_standing emptied).of_standing (endTransmission_standing _ 0)
    split
    · exact restartNow_inRange ended
    · exact ended
  all_goals exact h

theorem sendAnswer_standing (s : State) : SameStanding s s.sendAnswer := by
  simp only [State.sendAnswer]
  split
  · have placed : ∀ a, SameStanding s { s with answer := a } := fun a => .of_fields rfl rfl
    exact (placed _).trans (transmit_standing _ 0 _)
  all_goals exact .refl s

/-! ### Every step -/

theorem linesInRange_keptByEvents : KeptByEvents LinesInRange where
  choice _ _ h := h.of_standing (.of_fields rfl rfl)
  pin _ _ := hardReset_inRange _
  supply _ _ := hardReset_inRange _
  pinRelease s a r h := leaveReset_inRange (s := { s with pinReset := false })
    (h.of_standing (.of_fields rfl rfl)) a r
  supplyRelease s a r h := leaveReset_inRange (s := { s with supplyReset := false })
    (h.of_standing (.of_fields rfl rfl)) a r
  turnaround _ _ h := h.of_standing {}
  receive _ l m h _ _ := h.of_standing (setMode_standing _ l m)
  check _ _ h := h.of_standing {}
  torn _ _ h := h.of_standing {}
  malformed _ _ h := h.of_standing {}
  echo _ _ _ _ _ h _ := h.of_standing (setMode_standing _ _ _)
  trunk _ t h _ _ := trunkTake_inRange h t
  branch _ b t h _ _ := h.of_standing (branchTake_standing _ b t)
  send _ h := h.of_standing (sendAnswer_standing _)
  sent _ h := answerSent_inRange h
  done _ b h := transmissionDone_inRange h b
  mismatch _ b h := echoFault_inRange h b
  window _ b h := h.of_standing (windowExpired_standing _ b)
  settled _ b h := settled_inRange h b
  lifetime _ i h := h.of_standing (lifetimeExpired_standing _ i)
  wait _ i h := h.of_standing (waitExpired_standing _ i)
  hold _ _ h := h.of_standing {}
  linger _ _ h := h.of_standing {}
  reseed _ h := h.of_standing {}

theorem step_linesInRange {s t : State} (hs : LinesInRange s) (h : step s = .next t) :
    LinesInRange t :=
  step_keeps linesInRange_keptByEvents (fun _ _ h => h.of_standing (.of_fields rfl rfl))
    (fun _ h => h.of_standing (.of_fields (by simp) (by simp))) hs h

/-! ### The statement -/

/-- The ranges of the lines as the invariants state them, one after another. -/
theorem linesInRange_iff (s : State) : LinesInRange s ↔
    (∀ b, settingsInRange (s.line b).settings = true ∧
      ((s.line b).settings.enable = false ↔ (s.line b).state = .off)) ∧
    ErrorCountBounded s ∧ PendingRateDiffers s := by
  constructor
  · intro h
    exact ⟨fun b => ⟨(h b).settings, (h b).enable⟩, fun b => ⟨(h b).errors, (h b).faulted, (h b).up⟩,
      fun b => (h b).pendingRate⟩
  · rintro ⟨settings, errors, pendingRate⟩ b
    obtain ⟨fits, enable⟩ := settings b
    obtain ⟨bounded, faulted, up⟩ := errors b
    exact ⟨fits, enable, bounded, faulted, up, pendingRate b⟩

/-- The invariants of the statement are the ranges of the configuration and those of the lines. -/
theorem ranges_iff (s : State) :
    (DirectoryInRange s ∧ SettingsInRange s ∧ ErrorCountBounded s ∧ PendingRateDiffers s ∧
      OwnAddressFromStraps s) ↔ ConfigInRange s ∧ LinesInRange s := by
  rw [linesInRange_iff]
  constructor
  · rintro ⟨directory, ⟨hold, linger, settings⟩, errors, pendingRate, own⟩
    exact ⟨⟨directory, hold, linger, own⟩, settings, errors, pendingRate⟩
  · rintro ⟨⟨directory, hold, linger, own⟩, settings, errors, pendingRate⟩
    exact ⟨directory, ⟨hold, linger, settings⟩, errors, pendingRate, own⟩

/-- Settles O57: the configuration is in range event by event, and each controller is written only with
values in range. -/
theorem settingsStayInRange : Obligations.SettingsStayInRange := by
  intro s t hs h
  obtain ⟨config, lines⟩ := (ranges_iff s).mp hs
  exact (ranges_iff t).mpr
    ⟨step_keepsConfig configInRange_keptByConfigEvents config h, step_linesInRange lines h⟩

end Sys2Proof.ControllerRanges

/-! SUPPORT. The reads of the tables: which bank a selector names, what the range checks let through,
and the octets of a directory slot and of a profile item (R53, R77, R86, R152, R153). -/

namespace Sys2Proof.TableReads

-- Theorems elaborated side by side each hold a thread; one after another the whole text fits in memory.
set_option Elab.async false

open Sys2Proof.Machine Sys2Proof.Safety Sys2Proof.Laws

/-! ### Which bank a selector names -/

/-- The bank that a selector names, 0 LIVE or 1 OTHER (R86). -/
def selectedBank (s : State) (selector : Octet) : Bank :=
  if selector = 0 then s.liveBank else s.otherBank

/-- The state after a read of the selected bank: the report answered, or NO_STAGE where the other bank
is selected and RESEEDING (R86). -/
def readOutcome (s : State) (source seq selector code : Octet) (report : List Octet) : State :=
  if selector = 1 ∧ s.otherRole = .reseeding then refusedOwn s source seq 0x11 [2]
  else answering s (ownAnswer s source seq .ans code report)

theorem bankRead_reseeding {s : State} (h : s.otherRole = .reseeding) (report : Bank → List Octet) :
    bankRead s 1 report = noStage s := by simp [bankRead, h]

theorem bankRead_selected {s : State} {selector : Octet}
    (h : ¬ (selector = 1 ∧ s.otherRole = .reseeding)) (fits : selector = 0 ∨ selector = 1)
    (report : Bank → List Octet) :
    bankRead s selector report = (.ans (report (selectedBank s selector)), s) := by
  obtain rfl | rfl := fits
  · rfl
  · cases hr : s.otherRole with
    | reseeding => exact absurd ⟨rfl, hr⟩ h
    | _ => simp [bankRead, selectedBank, hr]

/-- A read of the selected bank, answered (R86, R145). -/
theorem bankRead_answered {s : State} {source seq selector : Octet}
    (fits : selector = 0 ∨ selector = 1) (code : Octet) (body : List Octet)
    (report : Bank → List Octet) :
    (bankRead s selector report).2.answerReply (ownRequest s source seq code body)
      (bankRead s selector report).1 =
      readOutcome s source seq selector code (report (selectedBank s selector)) := by
  by_cases h : selector = 1 ∧ s.otherRole = .reseeding
  · obtain ⟨rfl, hr⟩ := h
    rw [bankRead_reseeding hr, readOutcome, if_pos ⟨rfl, hr⟩, noStage, hr]
    rfl
  · rw [bankRead_selected h fits, readOutcome, if_neg h]
    rfl

/-! ### The operations on fields in range -/

theorem withFields_of_fitting {s : State} {checks : List (Octet × Bool)} {run : Reply × State}
    (h : ∀ c ∈ checks, c.2 = true) : withFields s checks run = run := by
  obtain ⟨-, e⟩ | ⟨before, offset, after, hsplit, -, -⟩ := withFields_cases s checks run
  · exact e
  · have out := h (offset, false) (by simp [hsplit])
    cases out

theorem selector_fits {selector : Octet} (fits : selector = 0 ∨ selector = 1) :
    within 0 1 selector.toNat = true := by
  obtain rfl | rfl := fits <;> decide

theorem octetOf_fin_toNat {n : Nat} (hn : n ≤ 256) (i : Fin n) : (octetOf i.val).toNat = i.val :=
  octetOf_toNat (lt_of_lt_of_le i.isLt hn)

theorem octetOf_fin_fits {n m : Nat} (hn : n ≤ 256) (hm : n ≤ m + 1) (i : Fin n) :
    within 0 m (octetOf i.val).toNat = true := by
  rw [octetOf_fin_toNat hn]
  have := i.isLt
  simp only [within, Bool.and_eq_true, decide_eq_true_eq]
  omega

section Reads

variable {s : State} {source seq selector : Octet}

/-- READ_SLOT with both fields in range reads the slot (R152). -/
theorem opReadSlot_fitting (fits : selector = 0 ∨ selector = 1) (i : Fin 64) :
    opReadSlot s [selector, octetOf i.val] =
      bankRead s selector fun k => slotReport (k.directory.get i) := by
  have slot : Fin.ofNat 64 (octetOf i.val).toNat = i := by
    rw [octetOf_fin_toNat (by decide)]; exact Fin.ofNat_val_eq_self i
  rw [opReadSlot, withFields_of_fitting, slot]
  simp only [List.forall_mem_cons]
  exact ⟨selector_fits fits, octetOf_fin_fits (by decide) (by decide) i, by simp⟩

/-- READ_PROFILE with its fields in range reads the item (R153). -/
theorem opReadProfile_fitting (fits : selector = 0 ∨ selector = 1) (p : Fin 8) {item : Octet}
    (hi : item.toNat ≤ 48) :
    opReadProfile s [selector, octetOf p.val, item] =
      bankRead s selector fun k => (k.profiles.get p).itemReport item.toNat := by
  have profile : Fin.ofNat 8 (octetOf p.val).toNat = p := by
    rw [octetOf_fin_toNat (by decide)]; exact Fin.ofNat_val_eq_self p
  rw [opReadProfile, withFields_of_fitting, profile]
  simp only [List.forall_mem_cons]
  exact ⟨selector_fits fits, octetOf_fin_fits (by decide) (by decide) p, by simpa [within] using hi,
    by simp⟩

theorem itemReport_op (p : Profile) (n : Fin 32) :
    p.itemReport n.val = [(p.ops.get n).code, (p.ops.get n).cls.code] := by
  rw [Profile.itemReport, if_pos n.isLt, Fin.ofNat_val_eq_self]

theorem itemReport_fault (p : Profile) (r : Fin 16) :
    p.itemReport (33 + r.val) = [p.faults.get r] := by
  rw [Profile.itemReport, if_neg (by omega), if_neg (by omega), Nat.add_sub_cancel_left,
    Fin.ofNat_val_eq_self]

/-! ### The commands -/

theorem exec_readSlot (ready : ManagementReady s) (hs : stationAddress source = true)
    (fits : selector = 0 ∨ selector = 1) (i : Fin 64) :
    exec (.readSlot source seq [selector, octetOf i.val]) s =
      .next (readOutcome s source seq selector 0x81
        (slotReport ((selectedBank s selector).directory.get i))) := by
  have taken : exec (.readSlot source seq [selector, octetOf i.val]) s =
      .next ((opReadSlot s [selector, octetOf i.val]).2.answerReply
        (ownRequest s source seq 0x81 [selector, octetOf i.val])
        (opReadSlot s [selector, octetOf i.val]).1) := takeOnTrunk_own ready hs rfl
  rw [taken, opReadSlot_fitting fits, bankRead_answered fits]

theorem exec_readProfile (ready : ManagementReady s) (hs : stationAddress source = true)
    (fits : selector = 0 ∨ selector = 1) (p : Fin 8) {item : Octet} (hi : item.toNat ≤ 48) :
    exec (.readProfile source seq [selector, octetOf p.val, item]) s =
      .next (readOutcome s source seq selector 0x84
        (((selectedBank s selector).profiles.get p).itemReport item.toNat)) := by
  have taken : exec (.readProfile source seq [selector, octetOf p.val, item]) s =
      .next ((opReadProfile s [selector, octetOf p.val, item]).2.answerReply
        (ownRequest s source seq 0x84 [selector, octetOf p.val, item])
        (opReadProfile s [selector, octetOf p.val, item]).1) := takeOnTrunk_own ready hs rfl
  rw [taken, opReadProfile_fitting fits p hi, bankRead_answered fits]

end Reads

/-- Settles O21: each read by its command's equation, a profile item by the range that it lies in. -/
theorem tablesReadFromSelectedBank : Obligations.TablesReadFromSelectedBank := by
  intro s source seq selector ready hs fits
  refine ⟨fun i => ?_, fun p => ⟨fun n => ?_, ?_, fun r => ?_⟩⟩
  · rw [exec_readSlot ready hs fits]
    rfl
  · have item : (octetOf n.val).toNat = n.val := octetOf_fin_toNat (by decide) n
    rw [exec_readProfile ready hs fits p (by omega), item, itemReport_op]
    rfl
  · rw [exec_readProfile ready hs fits p (by decide)]
    rfl
  · have item : (octetOf (33 + r.val)).toNat = 33 + r.val := octetOf_toNat (by omega)
    rw [exec_readProfile ready hs fits p (by omega), item, itemReport_fault]
    rfl

end Sys2Proof.TableReads

/-! SUPPORT. The generations of the table: the drain count (R81), the staged writes (R82 to R85), COMMIT with
its checks (R87 to R89), the re-seed (R93), and the LIVE bank, which no command out of hard reset edits (R79). -/

namespace Sys2Proof.TableGenerations

-- Theorems elaborated side by side each hold a thread; one after another the whole text fits in memory.
set_option Elab.async false

open Sys2Proof.Machine Sys2Proof.Safety Sys2Proof.Laws Sys2Proof.TableReads Sys2Proof.Configuration

/-! ### The drain count -/

/-- Settles O48: every step is a chain of moves of the exchange table, and each move keeps the count. -/
theorem drainCountStaysExact : Obligations.DrainCountStaysExact :=
  fun _ _ hs h => TableMoves.step_keep (fun _ _ => TableMoves.drainCounted_move) hs h

/-! ### Staged writes -/

/-- The state after a staged write that leaves the content `k`: written and answered in STAGED, refused
with NO_STAGE and the role code in another role (R82). -/
def writeOutcome (s : State) (source seq code : Octet) (k : Bank) : State :=
  match s.otherRole with
  | .staged => (answering s (ownAnswer s source seq .ans code [])).setBank s.live.other k
  | .draining => refusedOwn s source seq 0x11 [1]
  | .reseeding => refusedOwn s source seq 0x11 [2]

theorem answerReply_setBank (s : State) (k : BankId) (c : Bank) (t : Telegram) (body : List Octet) :
    (s.setBank k c).answerReply t (.ans body) = (s.answerReply t (.ans body)).setBank k c := by
  cases k <;> rfl

/-- A staged write, answered (R82, R145). -/
theorem stagedWrite_answered (s : State) (source seq code : Octet) (body : List Octet)
    (edit : Bank → Bank) :
    (stagedWrite s edit).2.answerReply (ownRequest s source seq code body) (stagedWrite s edit).1 =
      writeOutcome s source seq code (edit s.otherBank) := by
  obtain ⟨staged, h⟩ | ⟨other, h⟩ := stagedWrite_cases s edit <;> rw [h]
  · rw [answerReply_setBank, writeOutcome, staged]
    rfl
  · cases hr : s.otherRole with
    | staged => exact absurd hr other
    | _ => rw [noStage, writeOutcome, hr]; rfl

theorem ofNat_octetOf {n : Nat} [NeZero n] (hn : n ≤ 256) (i : Fin n) :
    Fin.ofNat n (octetOf i.val).toNat = i := by
  rw [octetOf_fin_toNat hn, Fin.ofNat_val_eq_self]

theorem branchNumber_fits (b : Branch) : within 1 4 (branchNumber b).toNat = true := by
  revert b; decide

theorem kindCode_fits (k : StationKind) : within 0 1 k.code.toNat = true := by cases k <;> rfl

theorem accessCode_fits (a : Access) : within 0 2 a.code.toNat = true := by cases a <;> rfl

theorem classCode_fits (c : OpClass) : within 0 3 c.code.toNat = true := by cases c <;> rfl

section Writes

variable {s : State}

/-- WRITE_SLOT with the octets of an entry in range sets the slot to that entry (R83). -/
theorem opWriteSlot_fitting (i : Fin 64) {e : DirEntry} (fits : entryInRange e = true) :
    opWriteSlot s [octetOf i.val, e.logical, branchNumber e.branch, e.kind.code, e.node,
        octetOf e.profile.val, e.access.code, octetOf e.budget.val] =
      stagedWrite s fun k => k.setSlot i (some e) := by
  simp only [entryInRange, Bool.and_eq_true] at fits
  obtain ⟨logical, node⟩ := fits
  have node : within (if e.kind.code = 0 then 1 else 0) 250 e.node.toNat = true := by
    cases hk : e.kind <;> simpa [hk, StationKind.code] using node
  rw [opWriteSlot, withFields_of_fitting, ofNat_octetOf (by decide), ofNat_octetOf (by decide),
    ofNat_octetOf (by decide), branchOfNumber_branchNumber, kindOfCode_code, accessOfCode_code]
  simp only [List.forall_mem_cons]
  exact ⟨octetOf_fin_fits (by decide) (by decide) i, logical, branchNumber_fits _, kindCode_fits _,
    node, octetOf_fin_fits (by decide) (by decide) _, accessCode_fits _,
    octetOf_fin_fits (by decide) (by decide) _, by simp⟩

/-- CLEAR_SLOT of a slot in range empties it (R84). -/
theorem opClearSlot_fitting (i : Fin 64) :
    opClearSlot s [octetOf i.val] = stagedWrite s fun k => k.setSlot i none := by
  rw [opClearSlot, withFields_of_fitting, ofNat_octetOf (by decide)]
  simp only [List.forall_mem_cons]
  exact ⟨octetOf_fin_fits (by decide) (by decide) i, by simp⟩

/-- The two checks that every WRITE_PROFILE begins with, met (R85). -/
theorem profileItem_fits (p : Fin 8) {item : Octet} (hi : item.toNat ≤ 48) :
    ∀ c ∈ [((0 : Octet), within 0 7 (octetOf p.val).toNat), (1, within 0 48 item.toNat)],
      c.2 = true := by
  simp only [List.forall_mem_cons]
  exact ⟨octetOf_fin_fits (by decide) (by decide) p, by simpa [within] using hi, by simp⟩

/-- WRITE_PROFILE of an operation entry (R85). -/
theorem opWriteProfile_op (p : Fin 8) (n : Fin 32) (e : OpEntry) :
    opWriteProfile s [octetOf p.val, octetOf n.val, e.code, e.cls.code] =
      stagedWrite s fun k => k.editProfile p fun q => q.setOp n e := by
  have item : (octetOf n.val).toNat = n.val := octetOf_fin_toNat (by decide) n
  have cls : ∀ c ∈ [((3 : Octet), within 0 3 e.cls.code.toNat)], c.2 = true := by
    simpa using classCode_fits e.cls
  rw [opWriteProfile, withFields_of_fitting (profileItem_fits p (by omega)), if_neg (by omega),
    if_neg (by omega), withFields_of_fitting cls, ofNat_octetOf (by decide),
    ofNat_octetOf (by decide), classOfCode_code]

/-- WRITE_PROFILE of the register offset (R85). -/
theorem opWriteProfile_offset (p : Fin 8) (w : Word) :
    opWriteProfile s (octetOf p.val :: 32 :: wordOctets w) =
      stagedWrite s fun k => k.editProfile p fun q => q.setOffset w := by
  rw [wordOctets, opWriteProfile, withFields_of_fitting (profileItem_fits p (by decide)),
    if_neg (by decide), if_pos (by decide), ofNat_octetOf (by decide), wordOf_highOctet_lowOctet]

/-- WRITE_PROFILE of a fault entry (R85). -/
theorem opWriteProfile_fault (p : Fin 8) (r : Fin 16) (detail : Octet) :
    opWriteProfile s [octetOf p.val, octetOf (33 + r.val), detail] =
      stagedWrite s fun k => k.editProfile p fun q => q.setFault r detail := by
  have item : (octetOf (33 + r.val)).toNat = 33 + r.val := octetOf_toNat (by omega)
  rw [opWriteProfile, withFields_of_fitting (profileItem_fits p (by omega)), if_neg (by omega), item,
    Nat.add_sub_cancel_left, Fin.ofNat_val_eq_self, ofNat_octetOf (by decide)]

variable {source seq code : Octet} {body : List Octet} {edit : Bank → Bank}

/-- An operation that is a staged write, taken and answered (R82, R145). -/
theorem takeOnTrunk_stagedWrite (ready : ManagementReady s) (hs : stationAddress source = true)
    (hb : bodyFits body = true)
    (h : operate s (ownRequest s source seq code body) = stagedWrite s edit) :
    takeOnTrunk (ownRequest s source seq code body) s =
      .next (writeOutcome s source seq code (edit s.otherBank)) := by
  rw [takeOnTrunk_own ready hs hb, State.manage, h, stagedWrite_answered]

theorem exec_writeSlot (ready : ManagementReady s) (hs : stationAddress source = true)
    (hb : bodyFits body = true) (h : opWriteSlot s body = stagedWrite s edit) :
    exec (.writeSlot source seq body) s = .next (writeOutcome s source seq 0x82 (edit s.otherBank)) :=
  takeOnTrunk_stagedWrite ready hs hb h

theorem exec_clearSlot (ready : ManagementReady s) (hs : stationAddress source = true)
    (hb : bodyFits body = true) (h : opClearSlot s body = stagedWrite s edit) :
    exec (.clearSlot source seq body) s = .next (writeOutcome s source seq 0x83 (edit s.otherBank)) :=
  takeOnTrunk_stagedWrite ready hs hb h

theorem exec_writeProfile (ready : ManagementReady s) (hs : stationAddress source = true)
    (hb : bodyFits body = true) (h : opWriteProfile s body = stagedWrite s edit) :
    exec (.writeProfile source seq body) s = .next (writeOutcome s source seq 0x85 (edit s.otherBank)) :=
  takeOnTrunk_stagedWrite ready hs hb h

end Writes

/-- Settles O20: each command is a staged write of its one item, a profile item by the range that it lies
in. -/
theorem stagedWritesSetOneItem : Obligations.StagedWritesSetOneItem := by
  intro s source seq ready hs
  exact ⟨fun i e fits => exec_writeSlot ready hs rfl (opWriteSlot_fitting i fits),
    fun i => exec_clearSlot ready hs rfl (opClearSlot_fitting i),
    fun p n e => exec_writeProfile ready hs rfl (opWriteProfile_op p n e),
    fun p w => exec_writeProfile ready hs rfl (opWriteProfile_offset p w),
    fun p r detail => exec_writeProfile ready hs rfl (opWriteProfile_fault p r detail)⟩

/-! ### The checks of a bank -/

theorem logicalOf_eq_some {k : Bank} {i : Fin 64} {a : Octet} :
    k.logicalOf i = some a ↔ HoldsAddress k i a := Option.map_eq_some_iff

/-- Slot `i` shares its address, as `duplicateSlot` tests it (R88). -/
theorem sharesAddress_iff (k : Bank) (i : Fin 64) :
    ((k.logicalOf i).isSome &&
        (List.finRange 64).any fun j => j ≠ i && k.logicalOf j == k.logicalOf i) = true ↔
      SharesAddress k i := by
  simp only [Bool.and_eq_true, List.any_eq_true, beq_iff_eq, decide_eq_true_eq,
    Option.isSome_iff_exists]
  constructor
  · rintro ⟨⟨a, hi⟩, j, -, hj, same⟩
    obtain ⟨e, he, ha⟩ := logicalOf_eq_some.mp hi
    obtain ⟨f, hf, hfa⟩ := logicalOf_eq_some.mp (same.trans hi)
    exact ⟨j, e, f, hj, he, hf, ha.trans hfa.symm⟩
  · rintro ⟨j, e, f, hj, he, hf, same⟩
    have hi := logicalOf_eq_some.mpr ⟨e, he, rfl⟩
    exact ⟨⟨_, hi⟩, j, List.mem_finRange j, hj,
      (logicalOf_eq_some.mpr ⟨f, hf, same.symm⟩).trans hi.symm⟩

/-- The lowest slot that shares its address (R88). -/
theorem duplicateSlot_eq_some {k : Bank} {i : Fin 64} (h : SharesAddress k i)
    (lowest : ∀ j, j < i → ¬ SharesAddress k j) : k.duplicateSlot = some i := by
  rw [Bank.duplicateSlot, ← Fin.find?_eq_find?_finRange, Fin.find?_eq_some_iff]
  exact ⟨(sharesAddress_iff k i).mpr h, fun j hj =>
    Bool.eq_false_iff.mpr fun hs => lowest j hj ((sharesAddress_iff k j).mp hs)⟩

theorem duplicateSlot_eq_none {k : Bank} (h : ∀ i, ¬ SharesAddress k i) : k.duplicateSlot = none := by
  rw [Bank.duplicateSlot, ← Fin.find?_eq_find?_finRange, Fin.find?_eq_none_iff]
  exact fun i => Bool.eq_false_iff.mpr fun hs => h i ((sharesAddress_iff k i).mp hs)

/-- The lowest slot that holds the own address (R88). -/
theorem conflictSlot_eq_some {k : Bank} {own : Octet} {i : Fin 64} (h : HoldsAddress k i own)
    (lowest : ∀ j, j < i → ¬ HoldsAddress k j own) : k.conflictSlot own = some i := by
  rw [Bank.conflictSlot, ← Fin.find?_eq_find?_finRange, Fin.find?_eq_some_iff]
  simpa [beq_eq_false_iff_ne, logicalOf_eq_some] using ⟨h, lowest⟩

theorem conflictSlot_eq_none {k : Bank} {own : Octet} (h : ∀ i, ¬ HoldsAddress k i own) :
    k.conflictSlot own = none := by
  rw [Bank.conflictSlot, ← Fin.find?_eq_find?_finRange, Fin.find?_eq_none_iff]
  simpa [beq_eq_false_iff_ne, logicalOf_eq_some] using h

/-! ### COMMIT -/

section Commit

variable {s : State}

theorem opCommit_of_length {body : List Octet} (h : body.length ≠ 1) :
    opCommit s body = badArgument s 255 := by
  unfold opCommit
  split
  · exact absurd rfl h
  · rfl

theorem opCommit_of_busy (h : s.otherRole ≠ .staged) (expected : Octet) :
    opCommit s [expected] = (.fault .busy (some s.otherRole.code), s) := by
  simp only [opCommit, if_pos h]

theorem opCommit_of_stale (h : s.otherRole = .staged) {expected : Octet}
    (stale : expected ≠ s.generation) :
    opCommit s [expected] = (.fault .stale (some s.generation), s) := by
  simp [opCommit, h, stale]

theorem opCommit_of_duplicate (h : s.otherRole = .staged) {i : Fin 64}
    (found : s.otherBank.duplicateSlot = some i) :
    opCommit s [s.generation] = (.fault .duplicate (some (octetOf i.val)), s) := by
  simp [opCommit, h, found]

theorem opCommit_of_conflict (h : s.otherRole = .staged)
    (single : s.otherBank.duplicateSlot = none) {i : Fin 64}
    (found : s.otherBank.conflictSlot s.ownAddress = some i) :
    opCommit s [s.generation] = (.fault .conflict (some (octetOf i.val)), s) := by
  simp [opCommit, h, single, found]

theorem opCommit_accepted (h : s.otherRole = .staged)
    (single : s.otherBank.duplicateSlot = none)
    (notOwn : s.otherBank.conflictSlot s.ownAddress = none) :
    opCommit s [s.generation] = (.ans [s.generation + 1], s.promote) := by
  simp [opCommit, h, single, notOwn, State.promote]

variable {source seq : Octet} {body : List Octet}

theorem exec_commit (ready : ManagementReady s) (hs : stationAddress source = true)
    (hb : bodyFits body = true) :
    exec (.commit source seq body) s =
      .next ((opCommit s body).2.answerReply (ownRequest s source seq 0x86 body)
        (opCommit s body).1) := takeOnTrunk_own ready hs hb

/-- A COMMIT that fails a check is answered with that check's reason and detail, and changes nothing else
(R87, R145). -/
theorem exec_commit_refused (ready : ManagementReady s) (hs : stationAddress source = true)
    (hb : bodyFits body = true) {reason : Reason} {detail : Octet}
    (h : opCommit s body = (.fault reason (some detail), s)) :
    exec (.commit source seq body) s = .next (refusedOwn s source seq reason.octet [detail]) := by
  rw [exec_commit ready hs hb, h]
  rfl

end Commit

/-- Settles O23: each check that fails gives the reply of `opCommit`. -/
theorem commitChecksInOrder : Obligations.CommitChecksInOrder := by
  intro s source seq body ready hs hb
  have refused {reason : Reason} {detail : Octet}
      (h : opCommit s body = (.fault reason (some detail), s)) :=
    exec_commit_refused (seq := seq) ready hs hb h
  refine ⟨fun length => refused (opCommit_of_length length), ?_⟩
  rintro expected rfl
  refine ⟨fun draining => ?_, fun reseeding => ?_,
    fun staged stale => refused (opCommit_of_stale staged stale), ?_⟩
  · have busy := opCommit_of_busy (s := s) (by simp [draining]) expected
    rw [draining] at busy
    exact refused busy
  · have busy := opCommit_of_busy (s := s) (by simp [reseeding]) expected
    rw [reseeding] at busy
    exact refused busy
  · rintro staged rfl
    exact ⟨fun i shares lowest =>
        refused (opCommit_of_duplicate staged (duplicateSlot_eq_some shares lowest)),
      fun single i holds lowest =>
        refused (opCommit_of_conflict staged (duplicateSlot_eq_none single)
          (conflictSlot_eq_some holds lowest))⟩

/-- Settles O24: with every check met, COMMIT answers the new generation and promotes the bank. -/
theorem commitPromotesStagedBank : Obligations.CommitPromotesStagedBank := by
  intro s source seq ready hs staged single notOwn
  rw [exec_commit ready hs rfl, opCommit_accepted staged (duplicateSlot_eq_none single)
    (conflictSlot_eq_none notOwn)]
  rfl

/-! ### The re-seed -/

theorem reseeded_of_reseeding {s : State} (h : s.otherRole = .reseeding) :
    s.reseeded = TableMoves.writeOther s s.liveBank .staged := by
  simp only [State.reseeded, h]; rfl

theorem reseeded_of_ne {s : State} (h : s.otherRole ≠ .reseeding) : s.reseeded = s := by
  cases hr : s.otherRole with
  | reseeding => exact absurd hr h
  | _ => simp only [State.reseeded, hr]

/-- A write of the other bank leaves all but the two banks and the role. -/
theorem writeOther_rest (s : State) (c : Bank) (role : OtherRole) :
    TableMoves.writeOther s c role =
      { s with
        otherRole := role
        bankA := (TableMoves.writeOther s c role).bankA
        bankB := (TableMoves.writeOther s c role).bankB } := by
  unfold TableMoves.writeOther
  cases s.live.other <;> rfl

/-- Settles O45: the re-seed writes the LIVE bank's content into the RESEEDING bank. -/
theorem reseedCopiesLiveBank : Obligations.ReseedCopiesLiveBank := by
  intro s running
  have taken : exec .reseedCompletion s = .next s.reseeded :=
    congrArg Host.Outcome.next (whenRunning_of_running running _)
  rw [taken]
  refine ⟨fun reseeding => ⟨_, rfl, ?_⟩, fun other => by rw [reseeded_of_ne other]⟩
  rw [reseeded_of_reseeding reseeding]
  exact ⟨by simp, by simp [State.otherBank], by simp [State.liveBank], writeOther_rest s _ _⟩

/-! ### The LIVE bank -/

/-- Two states with the same banks, the same one LIVE, in the same generation. -/
structure SameBanks (s t : State) : Prop where
  live : t.live = s.live := by simp
  generation : t.generation = s.generation := by simp
  bankA : t.bankA = s.bankA := by simp
  bankB : t.bankB = s.bankB := by simp

theorem SameBanks.bank {s t : State} (h : SameBanks s t) (k : BankId) : t.bank k = s.bank k := by
  cases k with
  | a => exact h.bankA
  | b => exact h.bankB

theorem sameBanks_of_config {s t : State} (h : SameConfig s t) (generation : t.generation = s.generation) :
    SameBanks s t where
  live := h.live
  generation := generation
  bankA := h.bankA
  bankB := h.bankB

/-- The bank that was LIVE has the content that it had; the banks change places only by a COMMIT, from
STAGED, with the generation, and with both contents kept (R79, R80, R82, R89). -/
def LiveKept (s t : State) : Prop :=
  t.bank s.live = s.bank s.live ∧
  ((t.live = s.live ∧ t.generation = s.generation) ∨
    (s.otherRole = .staged ∧ t.live = s.live.other ∧ t.generation = s.generation + 1 ∧
      t.bankA = s.bankA ∧ t.bankB = s.bankB))

theorem SameBanks.liveKept {s t : State} (h : SameBanks s t) : LiveKept s t :=
  ⟨h.bank _, .inl ⟨h.live, h.generation⟩⟩

theorem LiveKept.trans_same {s u t : State} (h : LiveKept s u) (same : SameBanks u t) : LiveKept s t := by
  rwa [LiveKept, same.bank, same.live, same.generation, same.bankA, same.bankB]

theorem LiveKept.of_same {s u t : State} (same : SameBanks s u) (role : u.otherRole = s.otherRole)
    (h : LiveKept u t) : LiveKept s t := by
  rwa [LiveKept, same.bank, same.live, same.generation, same.bankA, same.bankB, role] at h

/-- The other bank may be written with any content. -/
theorem setOther_liveKept (s : State) (c : Bank) : LiveKept s (s.setBank s.live.other c) :=
  ⟨by simp, .inl (by simp)⟩

theorem writeOther_liveKept (s : State) (c : Bank) (role : OtherRole) :
    LiveKept s (TableMoves.writeOther s c role) :=
  (setOther_liveKept s c).trans_same
    { live := rfl, generation := rfl, bankA := rfl, bankB := rfl }

theorem promote_liveKept {s : State} (staged : s.otherRole = .staged) : LiveKept s s.promote :=
  ⟨promote_bank s _, .inr ⟨staged, rfl, rfl, rfl, rfl⟩⟩

theorem effect_liveKept {s u : State} (h : Effect s u) : LiveKept s u := by
  cases h with
  | slot i e staged fits => exact setOther_liveKept s _
  | profile p edit staged => exact setOther_liveKept s _
  | promote staged single notOwn => exact promote_liveKept staged
  | _ => exact SameBanks.liveKept {}

theorem trunkTake_liveKept (s : State) (t : Telegram) : LiveKept s (s.trunkTake t) := by
  obtain e | e | e | ⟨-, -, -, -, d, en, -, e⟩ | ⟨-, -, -, e⟩ | ⟨-, -, -, e⟩ | ⟨-, -, -, -, e⟩ :=
    trunkTake_cases s t <;> rw [e]
  case inr.inr.inr.inr.inl =>
    exact manage_keeps (LiveKept s) t (fun _ => effect_liveKept) (fun _ _ h => h.trans_same {})
      (fun _ _ h => h.trans_same {})
  all_goals exact SameBanks.liveKept {}

theorem reseeded_liveKept (s : State) : LiveKept s s.reseeded := by
  by_cases h : s.otherRole = .reseeding
  · rw [reseeded_of_reseeding h]
    exact writeOther_liveKept s _ _
  · rw [reseeded_of_ne h]
    exact SameBanks.liveKept {}

theorem restartNow_liveKept (s : State) : LiveKept s s.restartNow := by
  have generation : s.restartNow.generation = s.generation := by
    simp only [State.restartNow]; split <;> simp
  obtain h | h := restartNow_config s
  · exact (sameBanks_of_config h generation).liveKept
  · exact (setOther_liveKept s _).trans_same (sameBanks_of_config h (by simpa using generation))

theorem answerSent_liveKept (s : State) : LiveKept s s.answerSent := by
  simp only [State.answerSent]
  split
  · split
    · exact (restartNow_liveKept _).of_same {} (by simp)
    · exact SameBanks.liveKept {}
  all_goals exact SameBanks.liveKept {}

/-! ### The LIVE bank and the receivers -/

theorem judgeStructure_liveKept (s : State) (l : Line) (t : Telegram) :
    LiveKept s (s.judgeStructure l t) := by
  simp only [State.judgeStructure]
  split
  · obtain rfl | ⟨b, rfl⟩ := line_cases l
    · exact trunkTake_liveKept s t
    · simpa [State.handOver] using SameBanks.liveKept (s := s) (t := s.branchTake b t) {}
  · exact SameBanks.liveKept {}

theorem judgeTelegram_liveKept (s : State) (l : Line) (octets : List Octet) (crc : Word) :
    LiveKept s (s.judgeTelegram l octets crc) := by
  simp only [State.judgeTelegram]
  split
  · exact SameBanks.liveKept {}
  · split
    · exact (judgeStructure_liveKept _ l _).of_same {} (by simp)
    · exact SameBanks.liveKept {}

theorem assemble_liveKept (s : State) (l : Line) (o : Octet) : LiveKept s (s.assemble l o) := by
  simp only [State.assemble]
  split
  · split <;> exact SameBanks.liveKept {}
  · split <;> exact SameBanks.liveKept {}
  · split
    · exact judgeTelegram_liveKept s l _ _
    · exact SameBanks.liveKept {}
  · exact SameBanks.liveKept {}

theorem receiveOctet_liveKept (s : State) (l : Line) (o : Octet) (stop : Bool) :
    LiveKept s (s.receiveOctet l o stop) := by
  simp only [State.receiveOctet]
  split
  · split <;> exact SameBanks.liveKept {}
  all_goals exact (assemble_liveKept _ l o).of_same {} (by simp)

theorem receiveTelegram_liveKept (s : State) (l : Line) (t : Telegram) :
    LiveKept s (s.receiveTelegram l t) := by
  simp only [State.receiveTelegram]
  split
  · exact SameBanks.liveKept {}
  · exact (judgeStructure_liveKept _ l t).of_same {} (by simp)

/-- Settles O59: only COMMIT lets the banks change places, and every other write of a bank is to the one
that is not LIVE. -/
theorem liveBankKeptUnlessPromoted : Obligations.LiveBankKeptUnlessPromoted := by
  intro c s t h notAssert notRelease notPowerOn
  change LiveKept s t
  have run : ∀ f : State → State, LiveKept s (f s) →
      Host.Outcome.next (φ := Fault) (ρ := Refusal) (s.whenRunning f) = .next t → LiveKept s t := by
    intro f hf ht
    obtain rfl := Host.Outcome.next.inj ht
    exact whenRunning_keeps (P := LiveKept s) (SameBanks.liveKept {}) hf
  have event : ∀ f : State → State, SameBanks s (f s) →
      Host.Outcome.next (φ := Fault) (ρ := Refusal) (s.whenRunning f) = .next t → LiveKept s t :=
    fun f hf => run f hf.liveKept
  cases c with
  | resetAssert cause => exact absurd rfl (notAssert cause)
  | resetRelease a r => exact absurd rfl (notRelease a r)
  | powerOnRelease a r => exact absurd rfl (notPowerOn a r)
  | badLength l o => exact run _ (receiveOctet_liveKept s l o true) h
  | receptionCompletion l o => exact run _ (receiveOctet_liveKept s l o true) h
  | octetReceived l o stop => exact run _ (receiveOctet_liveKept s l o stop) h
  | branchTelegram b x => exact run _ (receiveTelegram_liveKept s (lineOf b) x) h
  | trunkTransmitCompletion => exact run _ (answerSent_liveKept s) h
  | reseedCompletion => exact run _ (reseeded_liveKept s) h
  | gapTimerExpiry l => exact event (fun s => s.gapExpired l) {} h
  | turnaroundExpiry => exact event State.sendAnswer {} h
  | branchTransmitCompletion b => exact event (fun s => s.transmissionDone b) {} h
  | echoMismatch b cause => exact event (fun s => s.echoFault b) {} h
  | answerWindowExpiry b => exact event (fun s => s.windowExpired b) {} h
  | settleExpiry b => exact event (fun s => s.settled b) {} h
  | lifetimeExpiry i => exact event (fun s => s.lifetimeExpired i) {} h
  | waitExpiry i => exact event (fun s => s.waitExpired i) {} h
  | holdExpiry i => exact event (fun s => s.holdExpired i) {} h
  | lingerExpiry i => exact event (fun s => s.lingerExpired i) {} h
  | _ => exact run _ (receiveTelegram_liveKept s 0 _) h

end Sys2Proof.TableGenerations

/-! SUPPORT. The claims on a branch line: a line is at rest when, if it is IDLE, nothing claims it (R105).
An event that does not look for a claimant raises no claim on an IDLE line; where one may have been raised,
the controller looks. -/

namespace Sys2Proof.Claimants

-- Theorems elaborated side by side each hold a thread; one after another the whole text fits in memory.
set_option Elab.async false

open Sys2Proof.Machine Sys2Proof.Safety Sys2Proof.Laws Sys2Proof.TableMoves

/-! ### Lines at rest -/

/-- A line that is IDLE has no buffered broadcast and no eligible record in its queue (R105). -/
def AtRest (s : State) (b : Branch) : Prop :=
  (s.line b).state = .idle →
    (s.line b).broadcast = none ∧ ∀ i ∈ (s.line b).queue, s.eligible i = false

theorem noIdleClaimant_iff (s : State) : NoIdleClaimant s ↔ ∀ b, AtRest s b := by
  simp only [NoIdleClaimant, AtRest, not_Eligible_iff]

/-- An IDLE line `c` of `t` was IDLE in `s` with no fewer claims: its buffer and its queue have gained
nothing, and its records that wait, which hold others back, stand (R104). -/
structure Stays (s t : State) (c : Branch) : Prop where
  idle : (t.line c).state = .idle → (s.line c).state = .idle := by simp
  broadcast : (s.line c).broadcast = none → (t.line c).broadcast = none := by simp
  queue : ∀ i ∈ (t.line c).queue, i ∈ (s.line c).queue := by simp
  waiting : ∀ i r, s.record i = some r → r.branch = c → waitedOffLine r = true →
    t.record i = some r := by simp +contextual

/-- From `s` to `t` no claim is raised on line `c`, which is not IDLE in `t` or stays as it was. -/
def Calm (s t : State) (c : Branch) : Prop := (t.line c).state = .idle → Stays s t c

theorem Stays.calm {s t : State} {c : Branch} (h : Stays s t c) : Calm s t c := fun _ => h

theorem Calm.refl (s : State) (c : Branch) : Calm s s c := Stays.calm {}

theorem Calm.of_busy {s t : State} {c : Branch} (h : (t.line c).state ≠ .idle) : Calm s t c :=
  fun idle => absurd idle h

theorem Calm.trans {s t u : State} {c : Branch} (h : Calm s t c) (h' : Calm t u c) : Calm s u c := by
  intro hu
  have second := h' hu
  have first := h (second.idle hu)
  exact
    { idle := fun h => first.idle (second.idle h)
      broadcast := fun h => second.broadcast (first.broadcast h)
      queue := fun i hi => first.queue i (second.queue i hi)
      waiting := fun i r hr hb hw => second.waiting i r (first.waiting i r hr hb hw) hb hw }

theorem Calm.of_fields {s t : State} (lines : t.lines = s.lines) (slots : t.slots = s.slots)
    (c : Branch) : Calm s t c := by
  have line : ∀ b, t.line b = s.line b := by simp [State.line, lines]
  have record : ∀ i, t.record i = s.record i := by simp [State.record, slots]
  exact Stays.calm { idle := by simp [line], broadcast := by simp [line], queue := by simp [line],
                     waiting := by simp +contextual [record] }

theorem waitedOffLine_of_queued {r : Record} (h : r.activeState = some .queued) :
    waitedOffLine r = true := by simp only [waitedOffLine, h]

theorem waitedOffLine_iff (r : Record) : waitedOffLine r = true ↔
    r.activeState = some .queued ∨ ∃ w, r.activeState = some (.backoff w) := by
  simp only [waitedOffLine]
  cases r.activeState with
  | none => simp
  | some st => cases st <;> simp

/-- A line on which no claim is raised stays at rest: a record held back is still held back by the same
record, which waits on the same branch. -/
theorem AtRest.calm {s t : State} {c : Branch} (hq : QueueHoldsQueued s) (rest : AtRest s c)
    (h : Calm s t c) : AtRest t c := by
  intro idle
  obtain ⟨wasIdle, broadcast, queue, waiting⟩ := h idle
  obtain ⟨empty, held⟩ := rest (wasIdle idle)
  refine ⟨broadcast empty, fun i hi => Bool.eq_false_iff.mpr fun eligible => ?_⟩
  obtain ⟨r, hr, hs, hb⟩ := (queue_mem hq c i).mp (queue i hi)
  have stands := waiting i r hr hb (waitedOffLine_of_queued hs)
  obtain ⟨q, hq, -, free⟩ := (eligible_iff t i).mp eligible
  obtain rfl := Option.some.inj (stands.symm.trans hq)
  refine Bool.eq_false_iff.mp (held i (queue i hi)) ((eligible_iff s i).mpr ⟨r, hr, hs, fun ask => ?_⟩)
  refine Bool.eq_false_iff.mpr fun back => Bool.eq_false_iff.mp (free ask) ?_
  obtain ⟨j, e, he, target, branch, stamp, action, waits⟩ := (heldBack_iff s r).mp back
  exact (heldBack_iff t r).mpr ⟨j, e, waiting j e he (branch.trans hb) ((waitedOffLine_iff e).mpr waits),
    target, branch, stamp, action, waits⟩

/-! ### What raises no claim -/

/-- A record that does not wait on branch `c`. -/
def WaitsNotOn (c : Branch) (o : Option Record) : Prop :=
  ∀ r, o = some r → waitedOffLine r = true → r.branch ≠ c

theorem waitsNotOn_of_phase {o : Option Record} {r : Record} (c : Branch) (h : o = some r)
    (hw : waitedOffLine r = false) : WaitsNotOn c o := fun q hq hs => by
  obtain rfl := Option.some.inj (h.symm.trans hq)
  simp [hw] at hs

theorem setRecord_calm {s : State} {i : SlotId} {c : Branch} (q : Option Record)
    (h : WaitsNotOn c (s.record i)) : Calm s (s.setRecord i q) c := by
  refine Stays.calm { waiting := fun j r hr hb hw => ?_ }
  have other : j ≠ i := by rintro rfl; exact h r hr hw hb
  simpa [other] using hr

/-- A line whose controller enters a state other than IDLE, and every other line. -/
theorem setLine_calm {s : State} {b : Branch} {ln : BranchLine} (h : ln.state ≠ .idle) (c : Branch) :
    Calm s (s.setLine b ln) c := by
  by_cases hc : c = b
  · exact .of_busy (by simpa [hc] using h)
  · exact Stays.calm { idle := by simp [hc], broadcast := by simp [hc], queue := by simp [hc] }

theorem setLine_calm_of_ne {s : State} {b c : Branch} (ln : BranchLine) (hc : c ≠ b) :
    Calm s (s.setLine b ln) c :=
  Stays.calm { idle := by simp [hc], broadcast := by simp [hc], queue := by simp [hc] }

/-- A controller changes neither its state nor its claims. -/
theorem setLine_calm_of_same {s : State} {b : Branch} {ln : BranchLine}
    (state : ln.state = (s.line b).state) (broadcast : ln.broadcast = (s.line b).broadcast)
    (queue : ln.queue = (s.line b).queue) (c : Branch) : Calm s (s.setLine b ln) c := by
  by_cases hc : c = b
  · subst hc
    exact Stays.calm { idle := by simp [state], broadcast := by simp [broadcast],
                       queue := by simp [queue] }
  · exact setLine_calm_of_ne ln hc

theorem orphanedState_idle {i : SlotId} {st : LineState} (h : orphanedState i st = .idle) :
    st = .idle := by
  cases st with
  | sending a => cases a <;> cases h
  | listening x w => cases h
  | _ => exact h

/-- A record that does not wait on a branch raises no claim there by its completion. -/
theorem complete_calm {s : State} {i : SlotId} {c : Branch} (x : Result)
    (h : WaitsNotOn c (s.record i)) : Calm s (s.complete i x) c := by
  by_cases active : ∃ r, s.record i = some r ∧ r.isActive = true
  case neg =>
    rw [complete_of_inactive x fun r hr => by simpa using fun ha => active ⟨r, hr, ha⟩]
    exact .refl s c
  obtain ⟨r, hr, ha⟩ := active
  have line := complete_line x hr ha c
  refine Stays.calm ⟨fun idle => ?_, fun empty => by rw [complete_broadcast, empty], fun j hj => ?_,
    fun j q hq hb hw => ?_⟩
  · rw [line] at idle
    split at idle
    · rw [leftBy_state] at idle
      split at idle
      · exact orphanedState_idle idle
      · exact idle
    · exact idle
  · rw [complete_queue x hr ha] at hj
    split at hj
    · exact List.mem_of_mem_erase hj
    · exact hj
  · have other : j ≠ i := by rintro rfl; exact h q hq hw hb
    rw [complete_record, if_neg other, hq]

/-- Records of other branches raise no claim by their completion. -/
theorem completeAll_calm {s : State} {p : Record → Bool} (x : Result) {c : Branch}
    (h : ∀ r, p r = true → r.branch ≠ c) : Calm s (s.completeAll p x) c :=
  completeAll_keeps (fun u => Calm s u c) p x (.refl s c) fun _ _ _ hu hr _ hp =>
    hu.trans (complete_calm x fun q hq _ => by
      obtain rfl := Option.some.inj (hr.symm.trans hq)
      exact h _ hp)

/-- A line that goes down is not IDLE, and only its own records complete (R43). -/
theorem lineDown_calm (s : State) (b : Branch) {down : LineState} (h : down.isDown = true)
    (c : Branch) : Calm s (s.lineDown b down) c := by
  rw [lineDown_eq s b h]
  by_cases hc : c = b
  · refine .of_busy ?_
    rw [discard_line, if_pos hc]
    rintro rfl
    cases h
  · have dropped : Calm s (dropBroadcasts s b) c := .of_fields (by simp) (by simp) c
    refine (dropped.trans (completeAll_calm _ fun r hr => ?_)).trans (setLine_calm_of_ne _ hc)
    rw [beq_iff_eq] at hr
    exact hr ▸ Ne.symm hc

/-! ### The look for a claimant -/

/-- After its controller has looked a line is at rest: it has taken a claimant or has none (R105). -/
theorem look_atRest (s : State) (b : Branch) : AtRest (s.look b) b := by
  obtain ⟨h, none⟩ | ⟨bc, -, -, h⟩ | ⟨_, i, _, -, -, -, -, he, h⟩ := look_cases s b
  · rw [h]; exact none
  · intro idle
    rw [h, takeBroadcast_line, if_pos rfl] at idle
    cases idle
  · obtain ⟨r, hr, -⟩ := (eligible_iff s i).mp he
    intro idle
    rw [h, takeRecord_line hr, if_pos rfl] at idle
    cases idle

/-- A look takes a record of its own branch, which raises no claim on the others. -/
theorem look_calm {s : State} (hq : QueueHoldsQueued s) {b c : Branch} (hc : c ≠ b) :
    Calm s (s.look b) c := by
  have line : (s.look b).line c = s.line c := look_line_of_ne s hc
  refine Stays.calm ⟨by simp [line], by simp [line], by simp [line], fun i r hr hb _ => ?_⟩
  obtain same | ⟨q, seq, life, hq', -, hi, -⟩ := look_record s b i
  · rw [same, hr]
  · obtain ⟨p, hp, -, branch⟩ := (queue_mem hq b i).mp hi
    obtain rfl := Option.some.inj (hr.symm.trans hp)
    exact absurd (hb.symm.trans branch) hc

theorem look_queueHolds {s : State} (hq : QueueHoldsQueued s) (b : Branch) :
    QueueHoldsQueued (s.look b) := (look_moves s b).keep (fun _ _ => queueHolds_move) hq

/-! ### Every line at rest -/

/-- Every line is at rest, and the queues hold the QUEUED records (R24, R105). -/
structure Resting (s : State) : Prop where
  queue : QueueHoldsQueued s
  rest : ∀ c, AtRest s c

/-- Every line is at rest, but for one whose controller has yet to look. -/
structure RestingBut (s : State) (b : Branch) : Prop where
  queue : QueueHoldsQueued s
  rest : ∀ c, c ≠ b → AtRest s c

theorem Resting.calm {s t : State} (h : Resting s) (moves : Moves s t) (calm : ∀ c, Calm s t c) :
    Resting t :=
  ⟨moves.keep (fun _ _ => queueHolds_move) h.queue, fun c => (h.rest c).calm h.queue (calm c)⟩

theorem Resting.but {s t : State} {b : Branch} (h : Resting s) (queue : QueueHoldsQueued t)
    (calm : ∀ c, c ≠ b → Calm s t c) : RestingBut t b :=
  ⟨queue, fun c hc => (h.rest c).calm h.queue (calm c hc)⟩

/-- The look brings the one line to rest, and leaves the others at rest. -/
theorem RestingBut.look {s : State} {b : Branch} (h : RestingBut s b) : Resting (s.look b) where
  queue := look_queueHolds h.queue b
  rest c := by
    by_cases hc : c = b
    · exact hc ▸ look_atRest s b
    · exact (h.rest c hc).calm h.queue (look_calm h.queue hc)

/-- A line that has no claims is at rest. -/
theorem resting_of_cleared {t : State} (record : ∀ i, t.record i = none)
    (line : ∀ b, (t.line b).queue = [] ∧ (t.line b).broadcast = none) : Resting t where
  queue b := by simp [(line b).1, record]
  rest b _ := by simp [(line b).1, (line b).2]

/-! ### Records that join a queue -/

/-- A record that was in no queue, and that waited, if it did, on the same branch, joins its queue: no
other line gets a claim (R24). -/
theorem Resting.enqueue {s : State} (h : Resting s) {i : SlotId} {q : Record}
    (queued : q.activeState = some .queued) (old : ∀ b, ¬ Stands .queued b (s.record i))
    (waits : ∀ c, c ≠ q.branch → WaitsNotOn c (s.record i)) :
    RestingBut (enqueue (s.setRecord i (some q)) q.branch i) q.branch := by
  refine h.but (queue_of_join (i := i) (c := q.branch) h.queue (fun c => ?_) ?_ old ?_) fun c hc => ?_
  · rw [enqueue_line]; split <;> simp
  · simp +contextual [TableMoves.enqueue]
  · simp [TableMoves.enqueue, queued, eq_comm]
  · exact (setRecord_calm _ (waits c hc)).trans (setLine_calm_of_ne _ hc)

/-- A record that is not QUEUED, and waits if at all on its own branch, rejoins its queue (R38, R39). -/
theorem Resting.rejoin {s : State} (h : Resting s) {i : SlotId} {r q : Record}
    (hr : s.record i = some r) (unqueued : r.activeState ≠ some .queued)
    (queued : q.activeState = some .queued) (branch : q.branch = r.branch) :
    Resting ((s.setRecord i (some q)).joinQueue r.branch i) := by
  rw [← branch]
  refine (h.enqueue queued (by simp [hr, unqueued]) fun c hc p hp _ => ?_).look
  obtain rfl := Option.some.inj (hr.symm.trans hp)
  exact branch ▸ hc.symm

/-! ### Completion and the outcome of an attempt -/

/-- A record that completes early may free one that it held back, for which the controller looks (R105). -/
theorem completeEarly_resting {s : State} (h : Resting s) (i : SlotId) (x : Result) :
    Resting (s.completeEarly i x) := by
  have moves : Moves s (s.complete i x) := (Move.complete i x).moves
  cases hr : s.record i with
  | none => simpa only [State.completeEarly, hr] using h
  | some r =>
    simp only [State.completeEarly, hr]
    split
    · refine (h.but (moves.keep (fun _ _ => queueHolds_move) h.queue) fun c hc => ?_).look
      refine complete_calm x fun q hq _ => ?_
      obtain rfl := Option.some.inj (hr.symm.trans hq)
      exact hc.symm
    · rename_i off
      exact h.calm moves fun c =>
        complete_calm x (waitsNotOn_of_phase c hr (Bool.eq_false_iff.mpr off))

theorem waitedOffLine_onLine {r : Record} {life : Word} (h : r.phase = .active .onLine life) :
    waitedOffLine r = false := by simp [waitedOffLine, activeState_of_phase h]

/-- An ON_LINE record, which holds nothing back, changes and does not become QUEUED. -/
theorem Resting.setOnLine {s : State} (h : Resting s) {i : SlotId} {r q : Record} {life : Word}
    (hr : s.record i = some r) (hp : r.phase = .active .onLine life)
    (unqueued : q.activeState ≠ some .queued) : Resting (s.setRecord i (some q)) where
  queue := queue_of_same i h.queue (by simp) (by simp +contextual)
    (by simp [hr, activeState_of_phase hp, unqueued])
  rest c := (h.rest c).calm h.queue
    (setRecord_calm _ (waitsNotOn_of_phase c hr (waitedOffLine_onLine hp)))

theorem Resting.completeOnLine {s : State} (h : Resting s) {i : SlotId} {r : Record} {life : Word}
    (hr : s.record i = some r) (hp : r.phase = .active .onLine life) (x : Result) :
    Resting (s.complete i x) :=
  h.calm (Move.complete i x).moves fun c =>
    complete_calm x (waitsNotOn_of_phase c hr (waitedOffLine_onLine hp))

/-- The outcome of a failure: where the record rejoins its queue the controller looks (R38, R105). -/
theorem reportFailure_resting {s : State} (h : Resting s) (i : SlotId) (f : Failure) :
    Resting (s.reportFailure i f) := by
  obtain ⟨e, -⟩ | ⟨r, life, hr, hp, ⟨-, e⟩ | ⟨-, -, e⟩ | ⟨-, -, e⟩⟩ :=
    reportFailure_cases s i f <;> rw [e]
  · exact h
  · have noted : Resting (s.setRecord i (some (notedRecord r f))) :=
      h.setOnLine hr hp (by simp [activeState_of_phase hp])
    exact noted.completeOnLine (setRecord_record_same s i _) hp _
  · exact h.rejoin hr (by simp [activeState_of_phase hp]) rfl rfl
  · exact h.setOnLine hr hp (by simp [Record.activeState])

/-- The outcome of an answer (R36, R37). -/
theorem reportAnswer_resting {s : State} (h : Resting s) (i : SlotId) (t : Telegram) :
    Resting (s.reportAnswer i t) := by
  obtain ⟨e, -⟩ | ⟨r, life, hr, hp, ⟨x, e, -⟩ | ⟨action, e, -⟩⟩ := reportAnswer_cases s i t <;> rw [e]
  · exact h
  · exact h.completeOnLine hr hp x
  · exact h.setOnLine hr hp (by simp [Record.activeState])

/-! ### The events of a branch line -/

theorem Resting.of_fields {s t : State} (h : Resting s) (lines : t.lines = s.lines)
    (slots : t.slots = s.slots) : Resting t where
  queue := by simpa [QueueHoldsQueued, State.line, State.record, lines, slots] using h.queue
  rest c := (h.rest c).calm h.queue (.of_fields lines slots c)

theorem Resting.setLine {s : State} (h : Resting s) {b : Branch} {ln : BranchLine}
    (queue : ln.queue = (s.line b).queue) (calm : ∀ c, Calm s (s.setLine b ln) c) :
    Resting (s.setLine b ln) where
  queue := queue_of_same 0 h.queue
    (fun c => by by_cases hc : c = b <;> simp [hc, queue]) (by simp) (by simp)
  rest c := (h.rest c).calm h.queue (calm c)

theorem Resting.countBranch {s : State} (h : Resting s) (b : Branch) (c : BranchCounter) :
    Resting (s.countBranch b c) := h.of_fields (by simp) (by simp)

theorem Resting.countTrunk {s : State} (h : Resting s) (c : TrunkCounter) :
    Resting (s.countTrunk c) := h.of_fields (by simp) (by simp)

theorem Resting.endTransmission {s : State} (h : Resting s) (l : Line) :
    Resting (s.endTransmission l) := h.of_fields (by simp) (by simp)

theorem Resting.setLineState {s : State} (h : Resting s) (b : Branch) {st : LineState}
    (busy : st ≠ .idle) : Resting (s.setLineState b st) := h.setLine rfl (setLine_calm busy)

theorem Resting.settle {s : State} (h : Resting s) (b : Branch) : Resting (s.settle b) :=
  h.setLineState b (by simp)

theorem Resting.setErrors {s : State} (h : Resting s) (b : Branch) (n : Nat) :
    Resting (s.setLine b { s.line b with errors := n }) :=
  h.setLine rfl (setLine_calm_of_same rfl rfl rfl)

theorem lineDown_resting {s : State} (h : Resting s) (b : Branch) {down : LineState}
    (hd : down.isDown = true) : Resting (s.lineDown b down) :=
  h.calm (lineDown_moves s b hd) (lineDown_calm s b hd)

theorem acceptAnswer_resting {s : State} (h : Resting s) (b : Branch) (x : Exchange) (t : Telegram) :
    Resting (s.acceptAnswer b x t) := by
  simp only [State.acceptAnswer]
  split
  · exact reportAnswer_resting (h.settle b) _ t
  · exact (h.countBranch b _).settle b

theorem rejectAnswer_resting {s : State} (h : Resting s) (b : Branch) (x : Exchange) :
    Resting (s.rejectAnswer b x) := by
  simp only [State.rejectAnswer]
  split
  · exact reportFailure_resting ((h.countBranch b _).settle b) _ _
  · exact (h.countBranch b _).settle b

theorem branchTake_resting {s : State} (h : Resting s) (b : Branch) (t : Telegram) :
    Resting (s.branchTake b t) := by
  simp only [State.branchTake]
  split
  · split
    · exact acceptAnswer_resting h b _ t
    · exact rejectAnswer_resting h b _
    · exact h.countBranch b _
  · exact h
  all_goals exact h.countBranch b _

theorem transmissionDone_resting {s : State} (h : Resting s) (b : Branch) :
    Resting (s.transmissionDone b) := by
  simp only [State.transmissionDone]
  split
  · have ended := (h.endTransmission (lineOf b)).setErrors b 0
    split
    · exact (ended.countBranch b _).setLineState b (by simp)
    · exact (ended.countBranch b _).settle b
  all_goals exact h

theorem attemptFailed_resting {s : State} (h : Resting s) (b : Branch) (a : Attempt) :
    Resting (s.attemptFailed b a) := by
  simp only [State.attemptFailed]
  split
  · split
    · exact reportFailure_resting h _ _
    · exact h
  · exact h.countBranch b _

theorem echoFault_resting {s : State} (h : Resting s) (b : Branch) : Resting (s.echoFault b) := by
  simp only [State.echoFault]
  split
  · have counted := ((h.endTransmission (lineOf b)).countBranch b .lineErrors).setErrors b
      ((((s.endTransmission (lineOf b)).countBranch b .lineErrors).line b).errors + 1)
    split
    · exact attemptFailed_resting (counted.settle b) b _
    · exact lineDown_resting counted b rfl
  all_goals exact h

theorem windowExpired_resting {s : State} (h : Resting s) (b : Branch) :
    Resting (s.windowExpired b) := by
  simp only [State.windowExpired]
  split
  · have settled := (h.countBranch b .noAnswer).settle b
    split
    · exact reportFailure_resting settled _ _
    · exact settled
  all_goals exact h

/-- A line that enters IDLE looks for a claimant (R105, R117). -/
theorem enterIdle_resting {s : State} (h : Resting s) (b : Branch) : Resting (s.enterIdle b) := by
  have line : ∀ c, c ≠ b → ((s.setLineState b .idle).applyRate b).line c = s.line c := fun c hc => by
    simp only [State.applyRate]; split <;> simp [hc]
  have queue : ∀ c, (((s.setLineState b .idle).applyRate b).line c).queue = (s.line c).queue := fun c => by
    simp only [State.applyRate]; split <;> by_cases hc : c = b <;> simp [hc]
  have record : ∀ i, ((s.setLineState b .idle).applyRate b).record i = s.record i := by simp
  refine (h.but (queue_of_same 0 h.queue queue (fun j _ => record j) (by simp)) fun c hc => ?_).look
  exact Stays.calm { idle := by simp [line c hc], broadcast := by simp [line c hc],
                     queue := by simp [line c hc] }

theorem settled_resting {s : State} (h : Resting s) (b : Branch) : Resting (s.settled b) := by
  simp only [State.settled]
  split
  · exact enterIdle_resting h b
  all_goals exact h

/-! ### The events of the table -/

theorem lifetimeExpired_resting {s : State} (h : Resting s) (i : SlotId) :
    Resting (s.lifetimeExpired i) := by
  simp only [State.lifetimeExpired]
  split
  · exact h
  · exact completeEarly_resting h i _

theorem waitExpired_resting {s : State} (h : Resting s) (i : SlotId) : Resting (s.waitExpired i) := by
  simp only [State.waitExpired]
  split
  · exact h
  · rename_i r hr
    split
    · rename_i w ha
      obtain ⟨life, hp⟩ := (activeState_eq_some r _).mp ha
      rw [withActive_of_active hp]
      exact h.rejoin hr (by simp [ha]) rfl rfl
    · rename_i w ha
      obtain ⟨life, hp⟩ := (activeState_eq_some r _).mp ha
      rw [withActive_of_active hp]
      exact h.rejoin hr (by simp [ha]) rfl rfl
    all_goals exact h

theorem waitsNotOn_of_inactive {o : Option Record} {r : Record} (c : Branch) (h : o = some r)
    (idle : r.isActive = false) : WaitsNotOn c o :=
  waitsNotOn_of_phase c h (by simp [waitedOffLine, activeState_of_inactive idle])

theorem holdExpired_resting {s : State} (h : Resting s) (i : SlotId) : Resting (s.holdExpired i) := by
  refine h.calm (holdExpired_moves s i) fun c => ?_
  simp only [State.holdExpired]
  split
  · exact .refl s c
  · rename_i r hr
    split
    · rename_i hd
      exact (setRecord_calm none (waitsNotOn_of_inactive c hr (isActive_of_isDone hd))).trans
        (.of_fields (by simp) (by simp) c)
    · exact .refl s c

theorem lingerExpired_resting {s : State} (h : Resting s) (i : SlotId) :
    Resting (s.lingerExpired i) := by
  refine h.calm (lingerExpired_moves s i) fun c => ?_
  simp only [State.lingerExpired]
  split
  · exact .refl s c
  · rename_i r hr
    split
    · rename_i x linger stamp hp
      have delivered : r.deliveryStamp = some stamp := by simp [Record.deliveryStamp, hp]
      exact setRecord_calm none (waitsNotOn_of_inactive c hr (idle_of_deliveryStamp delivered).1)
    all_goals exact .refl s c

/-! ### The trunk port -/

/-- An admitted record joins its queue, and the controller looks (R34, R105). -/
theorem openRecord_resting {s : State} (h : Resting s) {i : SlotId} (free : s.record i = none)
    (d : Fin 64) (e : DirEntry) (t : Telegram) (out : Outbound) :
    Resting (s.openRecord i (s.newRecord d e t out) t) := by
  have unheld : ∀ c, WaitsNotOn c (s.record i) := fun c r hr => by simp [free] at hr
  have joined := h.enqueue (newRecord_fields s d e t out).1 (by simp [free]) fun c _ => unheld c
  rw [openRecord_eq]
  refine RestingBut.look ⟨?_, fun c hc => (joined.rest c hc).calm joined.queue ?_⟩
  · simpa [QueueHoldsQueued, TableMoves.enqueue] using joined.queue
  · refine Stays.calm { idle := ?_, broadcast := ?_, queue := ?_, waiting := ?_ } <;>
      simp +contextual [TableMoves.enqueue]

theorem judgeRequest_resting {s : State} (h : Resting s) (d : Fin 64) (e : DirEntry) (t : Telegram) :
    Resting (s.judgeRequest d e t) := by
  obtain ⟨i, -, e⟩ | ⟨reason, -, e⟩ | ⟨out, u, i, -, -, -, -, hs, e⟩ := judgeRequest_cases s d e t <;>
    rw [e]
  · exact h.of_fields (by simp) (by simp)
  · exact h.of_fields (by simp) (by simp)
  · obtain ⟨rfl, free⟩ | ⟨-, earliest, rfl⟩ := supply_cases hs
    · exact openRecord_resting h ((freeSlot_eq_some u i).mp free).1 d _ t out
    · obtain ⟨r, stamp, hr, delivered⟩ := deliveryStamp_of_earliest earliest
      have freed := h.calm (Move.freed hr delivered).moves fun c =>
        setRecord_calm none (waitsNotOn_of_inactive c hr (idle_of_deliveryStamp delivered).1)
      exact openRecord_resting freed (by simp) d _ t out

theorem collectFor_resting {s : State} (h : Resting s) (t : Telegram) : Resting (s.collectFor t) := by
  refine h.calm (collectFor_moves s t) fun c => ?_
  obtain ⟨a, e⟩ | ⟨a, e⟩ | ⟨i, r, x, hold, a, hr, hp, e⟩ := collectFor_cases s t <;> rw [e]
  · exact .of_fields (by simp) (by simp) c
  · exact .of_fields (by simp) (by simp) c
  · exact (setRecord_calm (some (deliveredRecord r x s.lingerTime s.nextDelivery))
      (waitsNotOn_of_inactive c hr (isActive_of_isDone (isDone_of_phase hp)))).trans
        (.of_fields (by simp) (by simp [State.setRecord, deliveredRecord]) c)

/-- A broadcast that a branch stores is a claim, for which its controller looks (R105, R125). -/
theorem offerBroadcast_resting {s : State} (h : Resting s) (bc : Broadcast) (b : Branch) :
    Resting (s.offerBroadcast bc b) := by
  simp only [State.offerBroadcast]
  split
  · exact h.countBranch b _
  · refine (h.but (queue_of_same 0 h.queue (fun c => ?_) (by simp) (by simp)) fun c hc =>
      setLine_calm_of_ne _ hc).look
    by_cases hc : c = b <;> simp [hc]

theorem relayBroadcast_resting {s : State} (h : Resting s) (bc : Broadcast) :
    Resting (s.relayBroadcast bc) :=
  foldl_keeps_pred Resting (fun _ b hu => offerBroadcast_resting hu bc b) _ h

/-- Where every controller looks, every line comes to rest, whatever claims there were. -/
theorem lookAll_resting {s : State} (h : QueueHoldsQueued s) : Resting s.lookAll := by
  have looked : ∀ l : List Branch, QueueHoldsQueued (l.foldl State.look s) ∧
      ∀ c ∈ l, AtRest (l.foldl State.look s) c := by
    intro l
    induction l using List.reverseRecOn with
    | nil => exact ⟨h, by simp⟩
    | append_singleton l b ih =>
      rw [List.foldl_concat]
      refine ⟨look_queueHolds ih.1 b, fun c hc => ?_⟩
      by_cases hb : c = b
      · rw [hb]; exact look_atRest _ b
      · exact (ih.2 c (by simpa [hb] using hc)).calm ih.1 (look_calm ih.1 hb)
  exact ⟨(looked _).1, fun c => (looked _).2 c (List.mem_finRange c)⟩

theorem writeBranch_resting {s : State} (h : Resting s) (b : Branch) (c : Settings) :
    Resting (s.writeBranch b c) := by
  have taken : Resting (s.takeSettings b c) := h.setLine rfl (setLine_calm_of_same rfl rfl rfl)
  simp only [State.writeBranch]
  split
  · simp only [State.enable]
    split
    · exact enterIdle_resting (taken.setErrors b 0) b
    · exact taken
  · simp only [State.disable]
    split
    · exact taken
    · exact lineDown_resting taken b rfl

theorem effect_resting {s u : State} (h : Resting s) (he : Effect s u) : Resting u := by
  cases he with
  | retire _ =>
    exact lookAll_resting ((completeAll_moves s _ _).keep (fun _ _ => queueHolds_move) h.queue)
  | branch b c _ => exact writeBranch_resting h b c
  | cancel i r _ _ => exact completeEarly_resting h i _
  | trunk _ _ _ _ => exact h.of_fields rfl rfl
  | restart => exact h.of_fields rfl rfl
  | _ => exact h.of_fields (by simp) (by simp)

theorem trunkTake_resting {s : State} (h : Resting s) (t : Telegram) : Resting (s.trunkTake t) := by
  obtain e | e | e | ⟨-, -, -, -, d, f, -, e⟩ | ⟨-, -, -, e⟩ | ⟨-, -, -, e⟩ | ⟨-, -, -, -, e⟩ :=
    trunkTake_cases s t <;> rw [e]
  · exact h
  · exact h.countTrunk _
  · exact h.countTrunk _
  · exact judgeRequest_resting h d f t
  · exact manage_keeps Resting t (fun _ he => effect_resting h he)
      (fun _ a hu => hu.of_fields (by simp) (by simp)) fun _ c hu => hu.countTrunk c
  · exact collectFor_resting h t
  · exact relayBroadcast_resting h _

/-! ### Resets -/

theorem resting_of_reset {t : State} {a : Octet} {r : RateCode}
    (slots : t.slots = (State.atReset a r).slots) (lines : t.lines = (State.atReset a r).lines) :
    Resting t :=
  resting_of_cleared (fun i => by simp [State.record, slots, State.atReset, resetSlot])
    fun b => by simp [State.line, lines, State.atReset, resetLine]

theorem hardReset_resting (s : State) : Resting s.hardReset :=
  resting_of_reset (a := s.ownAddress) (r := (s.framer 0).rate) rfl rfl

theorem leaveReset_resting {s : State} (h : Resting s) (a : BitVec 6) (r : BitVec 3) :
    Resting (s.leaveReset a r) := by
  simp only [State.leaveReset]
  split
  · exact h
  · exact resting_of_reset (a := strapAddress a) (r := strapRate r) rfl rfl

theorem restartNow_resting (s : State) : Resting s.restartNow :=
  resting_of_cleared (fun i => by simp [State.restartNow, State.record])
    fun b => by simp [State.restartNow, State.line, BranchLine.restarted]

theorem answerSent_resting {s : State} (h : Resting s) : Resting s.answerSent := by
  simp only [State.answerSent]
  split
  · split
    · exact restartNow_resting _
    · exact h.of_fields (by simp) (by simp)
  all_goals exact h

theorem sendAnswer_resting {s : State} (h : Resting s) : Resting s.sendAnswer := by
  simp only [State.sendAnswer]
  split
  · exact h.of_fields (by simp) (by simp)
  all_goals exact h

/-! ### Every step -/

theorem resting_keptByEvents : KeptByEvents Resting where
  choice _ _ h := h.of_fields rfl rfl
  pin _ _ := hardReset_resting _
  supply _ _ := hardReset_resting _
  pinRelease u a r h :=
    leaveReset_resting (s := { u with pinReset := false }) (h.of_fields rfl rfl) a r
  supplyRelease u a r h :=
    leaveReset_resting (s := { u with supplyReset := false }) (h.of_fields rfl rfl) a r
  turnaround _ _ h := h.of_fields (by simp) (by simp)
  receive _ _ _ h _ _ := h.of_fields (by simp) (by simp)
  check _ _ h := h.of_fields (by simp) (by simp)
  torn _ _ h := h.of_fields (by simp) (by simp)
  malformed _ _ h := h.of_fields (by simp) (by simp)
  echo _ _ _ _ _ h _ := h.of_fields (by simp) (by simp)
  trunk _ t h _ _ := trunkTake_resting h t
  branch _ b t h _ _ := branchTake_resting h b t
  send _ h := sendAnswer_resting h
  sent _ h := answerSent_resting h
  done _ b h := transmissionDone_resting h b
  mismatch _ b h := echoFault_resting h b
  window _ b h := windowExpired_resting h b
  settled _ b h := settled_resting h b
  lifetime _ i h := lifetimeExpired_resting h i
  wait _ i h := waitExpired_resting h i
  hold _ i h := holdExpired_resting h i
  linger _ i h := lingerExpired_resting h i
  reseed s h := h.of_fields (by simp) (by simp)

/-- Settles O53: wherever an event may raise a claim on a line, the controller of that line looks, and after
the look the line is at rest (`look_atRest`). -/
theorem idleLinesHaveNoClaimant : Obligations.IdleLinesHaveNoClaimant := by
  intro s t hq rest h
  have resting := step_keeps resting_keptByEvents (fun _ _ hu => hu.of_fields rfl rfl)
    (fun _ hu => hu.of_fields (by simp) (by simp)) ⟨hq, (noIdleClaimant_iff s).mp rest⟩ h
  exact (noIdleClaimant_iff t).mpr resting.rest

end Sys2Proof.Claimants

/-! SUPPORT. What an event of one branch line can change: the parts of that line and the records of its
branch, with ATTN, the drain count and the other bank's role, which a completion reports to (R25, R98,
R166). -/

namespace Sys2Proof.BranchFrames

-- Theorems elaborated side by side each hold a thread; one after another the whole text fits in memory.
set_option Elab.async false

open Sys2Proof.Machine Sys2Proof.Safety Sys2Proof.Laws Sys2Proof.TableMoves

/-! ### The frame of a branch -/

/-- The fields that no event of a branch line writes. -/
def fixedFields (s : State) :=
  (s.pinReset, s.supplyReset, s.ownAddress, s.answer, s.holdTime, s.lingerTime, s.nextAdmission,
    s.nextDelivery, s.bankA, s.bankB, s.live, s.generation, s.pendingRestart, s.trunkCounters,
    s.freeChoices, s.pending)

theorem eq_of_fixedFields {s t : State} (h : fixedFields t = fixedFields s) : t =
    { s with
      framers := t.framers, driverEnable := t.driverEnable, slots := t.slots, attn := t.attn,
      otherRole := t.otherRole, drainCount := t.drainCount, lines := t.lines,
      branchCounters := t.branchCounters } := by
  cases s; cases t
  simp only [fixedFields, Prod.mk.injEq] at h
  simp only [h]

/-- From `s` to `t` only what belongs to branch `b` changes, and no record is opened. -/
structure StaysOn (b : Branch) (s t : State) : Prop where
  line : ∀ c, c ≠ b → t.line c = s.line c := by simp +contextual
  counters : ∀ c, c ≠ b → t.branchCounters.get c = s.branchCounters.get c := by simp +contextual
  framer : ∀ l, l ≠ lineOf b → t.framer l = s.framer l := by simp +contextual
  driver : ∀ l, l ≠ lineOf b → t.driverEnable.get l = s.driverEnable.get l := by simp +contextual
  record : ∀ i r, s.record i = some r → r.branch ≠ b → t.record i = some r := by simp +contextual
  free : ∀ i, s.record i = none → t.record i = none := by simp +contextual
  issue : ∀ i, t.issue i = s.issue i := by simp
  fixed : fixedFields t = fixedFields s := by simp [fixedFields]

variable {b : Branch} {s t u : State}

theorem StaysOn.refl (b : Branch) (s : State) : StaysOn b s s := {}

theorem StaysOn.trans (h : StaysOn b s t) (h' : StaysOn b t u) : StaysOn b s u where
  line c hc := (h'.line c hc).trans (h.line c hc)
  counters c hc := (h'.counters c hc).trans (h.counters c hc)
  framer l hl := (h'.framer l hl).trans (h.framer l hl)
  driver l hl := (h'.driver l hl).trans (h.driver l hl)
  record i r hr hb := h'.record i r (h.record i r hr hb) hb
  free i hi := h'.free i (h.free i hi)
  issue i := (h'.issue i).trans (h.issue i)
  fixed := h'.fixed.trans h.fixed

/-! ### The shared operations -/

theorem setLine_staysOn (b : Branch) (s : State) (ln : BranchLine) : StaysOn b s (s.setLine b ln) := {}

theorem settle_staysOn (b : Branch) (s : State) : StaysOn b s (s.settle b) := setLine_staysOn b s _

theorem setMode_staysOn (b : Branch) (s : State) (m : FramerMode) :
    StaysOn b s (s.setMode (lineOf b) m) := {}

theorem setRate_staysOn (b : Branch) (s : State) (r : RateCode) :
    StaysOn b s (s.setRate (lineOf b) r) := {}

theorem setDriver_staysOn (b : Branch) (s : State) (high : Bool) :
    StaysOn b s (s.setDriver (lineOf b) high) := {}

theorem countBranch_staysOn (b : Branch) (s : State) (c : BranchCounter) :
    StaysOn b s (s.countBranch b c) := {}

theorem countRxCheck_staysOn (b : Branch) (s : State) : StaysOn b s (s.countRxCheck (lineOf b)) := by
  simpa only [State.countRxCheck, branchOf_lineOf] using countBranch_staysOn b s .rxCheck

theorem countRxTorn_staysOn (b : Branch) (s : State) : StaysOn b s (s.countRxTorn (lineOf b)) := by
  simpa only [State.countRxTorn, branchOf_lineOf] using countBranch_staysOn b s .rxTorn

theorem countRxMalformed_staysOn (b : Branch) (s : State) :
    StaysOn b s (s.countRxMalformed (lineOf b)) := by
  simpa only [State.countRxMalformed, branchOf_lineOf] using countBranch_staysOn b s .rxMalformed

theorem transmit_staysOn (b : Branch) (s : State) (t : Telegram) :
    StaysOn b s (s.transmit (lineOf b) t) := by
  have torn : StaysOn b s (if (s.framer (lineOf b)).mode.inProgress then s.countRxTorn (lineOf b) else s) := by
    split
    · exact countRxTorn_staysOn b s
    · exact .refl b s
  exact (torn.trans (setMode_staysOn b _ _)).trans (setDriver_staysOn b _ true)

theorem endTransmission_staysOn (b : Branch) (s : State) :
    StaysOn b s (s.endTransmission (lineOf b)) := by
  simp only [State.endTransmission]
  split
  · exact (setMode_staysOn b s _).trans (setDriver_staysOn b _ false)
  · exact .refl b s

theorem abandonReception_staysOn (b : Branch) (s : State) :
    StaysOn b s (s.abandonReception (lineOf b)) := by
  simp only [State.abandonReception]
  split
  · exact setMode_staysOn b s _
  · exact .refl b s

/-- A record of the branch changes, and stays a record. -/
theorem setRecord_staysOn {i : SlotId} {r : Record} (hr : s.record i = some r) (hb : r.branch = b)
    (q : Record) : StaysOn b s (s.setRecord i (some q)) where
  record j p hp other := by
    have ne : j ≠ i := by
      rintro rfl
      obtain rfl := Option.some.inj (hr.symm.trans hp)
      exact other hb
    simpa [ne] using hp
  free j hj := by
    have ne : j ≠ i := by rintro rfl; simp [hr] at hj
    simpa [ne] using hj

theorem leaveLine_staysOn (s : State) (i : SlotId) (r : Record) :
    StaysOn r.branch s (s.leaveLine i r) := by
  rw [leaveLine_eq]; exact setLine_staysOn r.branch s _

theorem depart_staysOn (b : Branch) (s : State) (k : BankId) : StaysOn b s (s.depart k) := {}

theorem assertAttention_staysOn (b : Branch) (s : State) : StaysOn b s s.assertAttention := {}

theorem complete_staysOn {i : SlotId} (x : Result) (own : ∀ r, s.record i = some r → r.branch = b) :
    StaysOn b s (s.complete i x) := by
  by_cases active : ∃ r, s.record i = some r ∧ r.isActive = true
  case neg =>
    rw [complete_of_inactive x fun r hr => by simpa using fun ha => active ⟨r, hr, ha⟩]
    exact .refl b s
  obtain ⟨r, hr, ha⟩ := active
  obtain rfl := own r hr
  rw [complete_of_active x hr ha]
  have left := leaveLine_staysOn s i r
  have stored := setRecord_staysOn (s := s.leaveLine i r) (i := i) (by simpa using hr) rfl
    (r.completed x s.holdTime)
  exact ((left.trans stored).trans (depart_staysOn _ _ _)).trans (assertAttention_staysOn _ _)

theorem completeAll_staysOn {p : Record → Bool} (x : Result) (own : ∀ r, p r = true → r.branch = b) :
    StaysOn b s (s.completeAll p x) :=
  completeAll_keeps (StaysOn b s) p x (.refl b s) fun u i r hu hr _ hp =>
    hu.trans (complete_staysOn x fun q hq => by
      obtain rfl := Option.some.inj (hr.symm.trans hq)
      exact own _ hp)

theorem lineDown_staysOn (b : Branch) (s : State) {down : LineState} (h : down.isDown = true) :
    StaysOn b s (s.lineDown b down) := by
  have dropped : StaysOn b s (dropBroadcasts s b) := by
    have ended := endTransmission_staysOn b s
    simp only [dropBroadcasts]
    split <;> split
    · exact (ended.trans (countBranch_staysOn b _ _)).trans (countBranch_staysOn b _ _)
    · exact ended.trans (countBranch_staysOn b _ _)
    · exact ended.trans (countBranch_staysOn b _ _)
    · exact ended
  rw [lineDown_eq s b h]
  exact (dropped.trans (completeAll_staysOn _ fun r hr => by simpa using hr)).trans
    (setLine_staysOn b _ _)

/-! ### The look for a claimant -/

/-- The records in the queue of a branch are records of the branch (R24). -/
def OwnQueue (s : State) (b : Branch) : Prop :=
  ∀ i ∈ (s.line b).queue, ∀ r, s.record i = some r → r.branch = b

theorem ownQueue_of_queueHolds (h : QueueHoldsQueued s) (b : Branch) : OwnQueue s b := by
  intro i hi r hr
  obtain ⟨q, hq, -, branch⟩ := (queue_mem h b i).mp hi
  obtain rfl := Option.some.inj (hr.symm.trans hq)
  exact branch

theorem OwnQueue.of_reads (h : OwnQueue s b) (queue : (t.line b).queue = (s.line b).queue)
    (record : ∀ i, t.record i = s.record i) : OwnQueue t b := by
  simpa only [OwnQueue, queue, record] using h

theorem takeBroadcast_staysOn (b : Branch) (s : State) (bc : Broadcast) :
    StaysOn b s (s.takeBroadcast b bc) := (setLine_staysOn b s _).trans (transmit_staysOn b _ _)

theorem look_staysOn (own : OwnQueue s b) : StaysOn b s (s.look b) := by
  refine look_keeps (StaysOn b s) (.refl b s) (fun bc _ _ => takeBroadcast_staysOn b s bc) ?_
  intro before i after _ _ hq _ he
  obtain ⟨r, hr, -⟩ := (eligible_iff s i).mp he
  rw [takeRecord_eq hr]
  exact ((setRecord_staysOn hr (own i (by simp [hq]) r hr) _).trans (setLine_staysOn b _ _)).trans
    (transmit_staysOn b _ _)

theorem enterIdle_staysOn (own : OwnQueue s b) : StaysOn b s (s.enterIdle b) := by
  have rated : StaysOn b s ((s.setLineState b .idle).applyRate b) := by
    refine StaysOn.trans (t := s.setLineState b .idle) (setLine_staysOn b s _) ?_
    simp only [State.applyRate]
    split
    · exact .refl b _
    · exact ((abandonReception_staysOn b _).trans (setRate_staysOn b _ _)).trans (setLine_staysOn b _ _)
  refine rated.trans (look_staysOn (own.of_reads ?_ (by simp)))
  simp only [State.applyRate]
  split <;> simp

/-! ### The outcome of an attempt -/

/-- The record in a slot, where it is ON_LINE, is one of the branch (R102). -/
def OwnAttempt (s : State) (b : Branch) (i : SlotId) : Prop :=
  ∀ r, s.record i = some r → r.activeState = some .onLine → r.branch = b

theorem reportFailure_staysOn (own : OwnQueue s b) {i : SlotId} (attempt : OwnAttempt s b i)
    (f : Failure) : StaysOn b s (s.reportFailure i f) := by
  obtain ⟨e, -⟩ | ⟨r, life, hr, hp, outcome⟩ := reportFailure_cases s i f
  · rw [e]; exact .refl b s
  have branch : r.branch = b := attempt r hr (activeState_of_phase hp)
  have changed : ∀ q, StaysOn b s (s.setRecord i (some q)) := setRecord_staysOn hr branch
  obtain ⟨-, e⟩ | ⟨-, -, e⟩ | ⟨-, -, e⟩ := outcome <;> rw [e]
  · exact (changed _).trans (complete_staysOn _ (by simpa using branch))
  · rw [branch]
    refine ((changed _).trans (setLine_staysOn b _ _)).trans (look_staysOn fun j hj q hq => ?_)
    by_cases hji : j = i
    · subst hji
      obtain rfl : _ = q := by simpa using hq
      rfl
    · exact own j (by simpa [hji] using hj) q (by simpa [hji] using hq)
  · exact changed _

theorem reportAnswer_staysOn {i : SlotId} (attempt : OwnAttempt s b i) (t : Telegram) :
    StaysOn b s (s.reportAnswer i t) := by
  obtain ⟨e, -⟩ | ⟨r, life, hr, hp, outcome⟩ := reportAnswer_cases s i t
  · rw [e]; exact .refl b s
  have branch : r.branch = b := attempt r hr (activeState_of_phase hp)
  obtain ⟨x, e, -⟩ | ⟨action, e, -⟩ := outcome <;> rw [e]
  · exact complete_staysOn x (by simpa [hr] using branch)
  · exact setRecord_staysOn hr branch _

/-! ### The events -/

/-- The queue of a branch holds its records, and its attempt is of its records (R24, R102). -/
structure Owns (s : State) (b : Branch) : Prop where
  queue : OwnQueue s b
  attempt : ∀ i, LineState.record (s.line b).state = some i → OwnAttempt s b i

theorem owns_of_invariants (ho : OnLineIsAttempt s) (hq : QueueHoldsQueued s) (b : Branch) : Owns s b where
  queue := ownQueue_of_queueHolds hq b
  attempt i hi r hr _ := by
    obtain ⟨q, hq, -, branch⟩ := (attempt_iff ho b i).mp hi
    obtain rfl := Option.some.inj (hr.symm.trans hq)
    exact branch

theorem Owns.of_reads (h : Owns s b) (lines : t.lines = s.lines) (slots : t.slots = s.slots) :
    Owns t b := by
  obtain ⟨queue, attempt⟩ := h
  constructor
  · simpa only [OwnQueue, State.line, State.record, lines, slots] using queue
  · simpa only [OwnAttempt, State.line, State.record, lines, slots] using attempt

/-- A line settles, and its attempt fails. -/
theorem settle_reportFailure_staysOn (h : OwnQueue s b) {i : SlotId} (attempt : OwnAttempt s b i)
    (f : Failure) : StaysOn b s ((s.settle b).reportFailure i f) :=
  (settle_staysOn b s).trans (reportFailure_staysOn (h.of_reads (by simp) (by simp))
    (by simpa [OwnAttempt] using attempt) f)

theorem transmissionDone_staysOn (b : Branch) (s : State) : StaysOn b s (s.transmissionDone b) := by
  simp only [State.transmissionDone]
  split
  · have ended := (endTransmission_staysOn b s).trans
      (setLine_staysOn b _ { (s.endTransmission (lineOf b)).line b with errors := 0 })
    split
    · exact (ended.trans (countBranch_staysOn b _ .sent)).trans (setLine_staysOn b _ _)
    · exact (ended.trans (countBranch_staysOn b _ .bcastSent)).trans (settle_staysOn b _)
  all_goals exact .refl b s

theorem echoFault_staysOn (h : Owns s b) : StaysOn b s (s.echoFault b) := by
  simp only [State.echoFault]
  split
  · rename_i a hst
    have counted := ((endTransmission_staysOn b s).trans (countBranch_staysOn b _ .lineErrors)).trans
      (setLine_staysOn b _ { ((s.endTransmission (lineOf b)).countBranch b .lineErrors).line b with
        errors := (((s.endTransmission (lineOf b)).countBranch b .lineErrors).line b).errors + 1 })
    split
    · refine counted.trans ?_
      simp only [State.attemptFailed]
      split
      · split
        · rename_i i hi
          have attempt := h.attempt i (by rw [hst]; exact hi)
          exact settle_reportFailure_staysOn (h.queue.of_reads (by simp) (by simp))
            (by simpa [OwnAttempt] using attempt) _
        · exact settle_staysOn b _
      · exact (settle_staysOn b _).trans (countBranch_staysOn b _ _)
    · exact counted.trans (lineDown_staysOn b _ rfl)
  all_goals exact .refl b s

theorem windowExpired_staysOn (h : Owns s b) : StaysOn b s (s.windowExpired b) := by
  simp only [State.windowExpired]
  split
  · rename_i x w hst
    have counted := countBranch_staysOn b s .noAnswer
    split
    · rename_i i hi
      have attempt := h.attempt i (by rw [hst]; exact hi)
      exact counted.trans (settle_reportFailure_staysOn (h.queue.of_reads (by simp) (by simp))
        (by simpa [OwnAttempt] using attempt) _)
    · exact counted.trans (settle_staysOn b _)
  all_goals exact .refl b s

theorem branchTake_staysOn (h : Owns s b) (t : Telegram) : StaysOn b s (s.branchTake b t) := by
  have counted := countBranch_staysOn b s
  simp only [State.branchTake]
  split
  · rename_i x w hst
    have attempt : ∀ i, x.record = some i → OwnAttempt s b i := fun i hi =>
      h.attempt i (by rw [hst]; exact hi)
    split
    · simp only [State.acceptAnswer]
      split
      · exact (settle_staysOn b s).trans (reportAnswer_staysOn
          (by simpa [OwnAttempt] using attempt _ ‹_›) t)
      · exact (counted _).trans (settle_staysOn b _)
    · simp only [State.rejectAnswer]
      split
      · exact (counted _).trans (settle_reportFailure_staysOn (h.queue.of_reads (by simp) (by simp))
          (by simpa [OwnAttempt] using attempt _ ‹_›) _)
      · exact (counted _).trans (settle_staysOn b _)
    · exact counted _
  · exact .refl b s
  all_goals exact counted _

theorem settled_staysOn (h : Owns s b) : StaysOn b s (s.settled b) := by
  simp only [State.settled]
  split
  · exact enterIdle_staysOn h.queue
  all_goals exact .refl b s

/-! ### The receiver -/

theorem Owns.setMode (h : Owns s b) (m : FramerMode) : Owns (s.setMode (lineOf b) m) b :=
  h.of_reads (by simp) (by simp)

theorem judgeStructure_staysOn (h : Owns s b) (t : Telegram) :
    StaysOn b s (s.judgeStructure (lineOf b) t) := by
  simp only [State.judgeStructure, State.handOver, branchOf_lineOf]
  split
  · exact branchTake_staysOn h t
  · exact countRxMalformed_staysOn b s

theorem assemble_staysOn (h : Owns s b) (o : Octet) : StaysOn b s (s.assemble (lineOf b) o) := by
  have go := setMode_staysOn b s
  simp only [State.assemble]
  split
  · split
    · exact go _
    · exact .refl b s
  · split
    · exact go _
    · exact (go _).trans (countRxMalformed_staysOn b _)
  · split
    · simp only [State.judgeTelegram]
      split
      · exact (go _).trans (countRxCheck_staysOn b _)
      · split
        · exact (go _).trans (judgeStructure_staysOn (h.setMode _) _)
        · exact (go _).trans (countRxMalformed_staysOn b _)
    · exact go _
  · exact .refl b s

theorem receiveOctet_staysOn (h : Owns s b) (o : Octet) (stop : Bool) :
    StaysOn b s (s.receiveOctet (lineOf b) o stop) := by
  simp only [State.receiveOctet, restartTurnaround_lineOf, branchOf_lineOf]
  split
  · simp only [State.compareEcho]
    split
    · exact echoFault_staysOn h
    · split
      · split
        · exact transmissionDone_staysOn b s
        · exact setMode_staysOn b s _
      · exact echoFault_staysOn h
  all_goals exact assemble_staysOn h o

theorem receiveTelegram_staysOn (h : Owns s b) (t : Telegram) :
    StaysOn b s (s.receiveTelegram (lineOf b) t) := by
  simp only [State.receiveTelegram, restartTurnaround_lineOf]
  split
  · exact .refl b s
  · exact (setMode_staysOn b s _).trans (judgeStructure_staysOn (h.setMode _) t)

theorem gapExpired_staysOn (b : Branch) (s : State) : StaysOn b s (s.gapExpired (lineOf b)) := by
  simp only [State.gapExpired]
  split
  · exact (setMode_staysOn b s _).trans (countRxTorn_staysOn b _)
  · exact .refl b s

/-- Every event of a branch line stays on its branch. -/
theorem exec_staysOn {c : Instr} (h : Owns s b) (event : isEventOf c b) (run : exec c s = .next t) :
    StaysOn b s t := by
  have taken : ∀ f : State → State, StaysOn b s (f s) →
      Host.Outcome.next (φ := Fault) (ρ := Refusal) (s.whenRunning f) = .next t → StaysOn b s t := by
    intro f hf e
    obtain rfl := Host.Outcome.next.inj e
    exact whenRunning_keeps (.refl b s) hf
  obtain rfl | ⟨_, rfl⟩ | rfl | ⟨_, rfl⟩ | rfl | ⟨o, stop, rfl⟩ | rfl | ⟨o, rfl⟩ | ⟨o, rfl⟩ := event
  · exact taken _ (transmissionDone_staysOn b s) run
  · exact taken _ (echoFault_staysOn h) run
  · exact taken _ (windowExpired_staysOn h) run
  · exact taken _ (receiveTelegram_staysOn h _) run
  · exact taken _ (settled_staysOn h) run
  · exact taken _ (receiveOctet_staysOn h o stop) run
  · exact taken _ (gapExpired_staysOn b s) run
  · exact taken _ (receiveOctet_staysOn h o true) run
  · exact taken _ (receiveOctet_staysOn h o true) run

/-- Settles O60. -/
theorem branchEventsStayOnTheirBranch : Obligations.BranchEventsStayOnTheirBranch := by
  intro c s t b ho hq event run
  have stays := exec_staysOn (owns_of_invariants ho hq b) event run
  exact ⟨fun c hc => ⟨stays.line c hc, stays.counters c hc⟩,
    fun l hl => ⟨stays.framer l hl, stays.driver l hl⟩, stays.record,
    fun i => ⟨stays.issue i, stays.free i⟩, eq_of_fixedFields stays.fixed⟩

end Sys2Proof.BranchFrames

/-! SUPPORT. The choice of claimant (R104 to R108), and the offer of a broadcast to the branches (R125, R133),
each of which its own controller takes. -/

namespace Sys2Proof.ClaimantChoice

-- Theorems elaborated side by side each hold a thread; one after another the whole text fits in memory.
set_option Elab.async false

open Sys2Proof.Machine Sys2Proof.Safety Sys2Proof.Laws Sys2Proof.TableMoves Sys2Proof.BranchFrames

/-! ### What the look takes -/

section Look

variable {s : State} {b : Branch}

theorem look_of_busy (h : (s.line b).state ≠ .idle) : s.look b = s := by
  obtain ⟨e, -⟩ | ⟨bc, idle, -⟩ | ⟨_, _, _, idle, -⟩ := look_cases s b
  · exact e
  · exact absurd idle h
  · exact absurd idle h

theorem look_of_broadcast {bc : Broadcast} (idle : (s.line b).state = .idle)
    (buffer : (s.line b).broadcast = some bc) : s.look b = s.takeBroadcast b bc := by
  simp only [State.look, idle, buffer]

theorem look_of_none (idle : (s.line b).state = .idle) (buffer : (s.line b).broadcast = none)
    (h : ∀ i ∈ (s.line b).queue, ¬ Eligible s i) : s.look b = s := by
  have none : (s.line b).queue.find? s.eligible = none :=
    List.find?_eq_none.mpr fun i hi => by simpa using (not_Eligible_iff s i).mp (h i hi)
  simp only [State.look, idle, buffer, none]

/-- Without a buffered broadcast the first eligible record of the queue is taken (R105). -/
theorem look_of_first {before after : List SlotId} {i : SlotId} (idle : (s.line b).state = .idle)
    (buffer : (s.line b).broadcast = none) (queue : (s.line b).queue = before ++ i :: after)
    (passed : ∀ j ∈ before, ¬ Eligible s j) (first : Eligible s i) :
    s.look b = s.takeRecord b i := by
  have found : (s.line b).queue.find? s.eligible = some i :=
    List.find?_eq_some_iff_append.mpr ⟨(eligible_iff_Eligible s i).mpr first, before, after, queue,
      fun j hj => by simpa using (not_Eligible_iff s j).mp (passed j hj)⟩
  simp only [State.look, idle, buffer, found]

/-- The record that is taken leaves the queue (R35, R105 to R108). -/
theorem takeRecord_split {before after : List SlotId} {i : SlotId} {r : Record} {lifetime : Word}
    (queue : (s.line b).queue = before ++ i :: after) (single : i ∉ before)
    (hr : s.record i = some r) (hp : r.phase = .active .queued lifetime) :
    s.takeRecord b i =
      ((s.setRecord i (some (onLineRecord r lifetime (r.branchSeq.getD ((s.line b).seq + 1))))).setLine b
        { s.line b with
          queue := before ++ after
          seq := if r.branchSeq = none then (s.line b).seq + 1 else (s.line b).seq
          state := .sending (.exchange
            { record := some i, seq := r.branchSeq.getD ((s.line b).seq + 1),
              sought := soughtBy r }) }).transmit (lineOf b)
        (recordTelegram s.ownAddress r (r.branchSeq.getD ((s.line b).seq + 1))) := by
  have erased : (s.line b).queue.erase i = before ++ after := by
    rw [queue, List.erase_append_right _ single, List.erase_cons_head]
  have seq : (if r.branchSeq.isSome then (s.line b).seq else (s.line b).seq + 1) =
      if r.branchSeq = none then (s.line b).seq + 1 else (s.line b).seq := by
    cases r.branchSeq <;> rfl
  rw [takeRecord_eq hr, withActive_of_active hp, erased, seq]
  rfl

end Look

/-- Settles O31: the look, by what claims the line, and the telegram of a record, by its action. -/
theorem controllerTakesClaimant : Obligations.ControllerTakesClaimant := by
  intro s b ln
  refine ⟨look_of_busy, fun bc idle buffer => look_of_broadcast idle buffer, look_of_none, ?_⟩
  intro before after i r lifetime idle buffer queue single passed hr hp seq taken
  have queued := activeState_of_phase hp
  have look (first : Eligible s i) : s.look b = taken (soughtBy r) (recordTelegram s.ownAddress r seq) :=
    (look_of_first idle buffer queue passed first).trans (takeRecord_split queue single hr hp)
  refine ⟨fun ask free => ?_, fun link collect => ?_⟩
  · rw [look ⟨r, hr, queued, .inr ⟨ask, free⟩⟩]
    simp only [soughtBy, recordTelegram, ask]
  · rw [look ⟨r, hr, queued, .inl ⟨link, collect⟩⟩]
    simp only [soughtBy, recordTelegram, collect]

/-! ### A broadcast offered to one branch -/

/-- The parts of branch `b` are the same. -/
structure SameBranch (b : Branch) (s t : State) : Prop where
  line : t.line b = s.line b := by simp
  framer : t.framer (lineOf b) = s.framer (lineOf b) := by simp
  driver : t.driverEnable.get (lineOf b) = s.driverEnable.get (lineOf b) := by simp
  counters : t.branchCounters.get b = s.branchCounters.get b := by simp
  ownAddress : t.ownAddress = s.ownAddress := by simp

theorem SameBranch.trans {b : Branch} {s t u : State} (h : SameBranch b s t) (h' : SameBranch b t u) :
    SameBranch b s u :=
  ⟨h'.line.trans h.line, h'.framer.trans h.framer, h'.driver.trans h.driver,
    h'.counters.trans h.counters, h'.ownAddress.trans h.ownAddress⟩

theorem sameBranch_of_staysOn {b c : Branch} {s t : State} (h : StaysOn b s t) (hc : c ≠ b) :
    SameBranch c s t where
  line := h.line c hc
  framer := h.framer _ (by simpa using hc)
  driver := h.driver _ (by simpa using hc)
  counters := h.counters c hc
  ownAddress := by rw [eq_of_fixedFields h.fixed]

section Offer

variable {s : State} {b : Branch} (bc : Broadcast)

theorem offerBroadcast_dropped (h : (s.line b).state.isDown = true ∨ (s.line b).broadcast ≠ none) :
    s.offerBroadcast bc b = s.countBranch b .bcastDropped := by
  rw [State.offerBroadcast, if_pos]
  simpa [Option.isSome_iff_ne_none] using h

theorem offerBroadcast_free (up : (s.line b).state.isDown = false) (empty : (s.line b).broadcast = none) :
    s.offerBroadcast bc b = (s.setLine b { s.line b with broadcast := some bc }).look b := by
  rw [State.offerBroadcast, if_neg]
  simp [up, empty]

theorem offerBroadcast_stored (up : (s.line b).state.isDown = false)
    (empty : (s.line b).broadcast = none) (busy : (s.line b).state ≠ .idle) :
    s.offerBroadcast bc b = s.setLine b { s.line b with broadcast := some bc } := by
  rw [offerBroadcast_free bc up empty, look_of_busy (by simpa using busy)]

/-- A broadcast that is taken at once never stands in the buffer (R105, R125). -/
theorem offerBroadcast_taken (idle : (s.line b).state = .idle) (empty : (s.line b).broadcast = none) :
    s.offerBroadcast bc b =
      (s.setLine b { s.line b with
        seq := (s.line b).seq + 1, state := .sending (.broadcast ((s.line b).seq + 1)) }).transmit
        (lineOf b) (broadcastTelegram s.ownAddress bc ((s.line b).seq + 1)) := by
  rw [offerBroadcast_free bc (by rw [idle]; rfl) empty, look_of_broadcast (bc := bc) (by simpa using idle) (by simp)]
  simp [State.takeBroadcast, empty]

/-- The three things that a branch can do with a broadcast that it is offered (R125). -/
theorem offer_cases (s : State) (b : Branch) :
    ((s.line b).state.isDown = true ∨ (s.line b).broadcast ≠ none) ∨
    ((s.line b).state.isDown = false ∧ (s.line b).broadcast = none ∧ (s.line b).state ≠ .idle) ∨
    ((s.line b).state = .idle ∧ (s.line b).broadcast = none) := by
  by_cases empty : (s.line b).broadcast = none
  · cases (s.line b).state <;> simp [LineState.isDown, empty]
  · exact .inl (.inr empty)

theorem offerBroadcast_staysOn (s : State) (b : Branch) : StaysOn b s (s.offerBroadcast bc b) := by
  obtain drop | ⟨up, empty, busy⟩ | ⟨idle, empty⟩ := offer_cases s b
  · rw [offerBroadcast_dropped bc drop]; exact countBranch_staysOn b s _
  · rw [offerBroadcast_stored bc up empty busy]; exact setLine_staysOn b s _
  · rw [offerBroadcast_taken bc idle empty]
    exact (setLine_staysOn b s _).trans (transmit_staysOn b _ _)

/-- The counters of a branch whose framer begins to transmit: a reception that it tears is counted (R17). -/
theorem transmit_counters (s : State) (b : Branch) (t : Telegram) :
    (s.transmit (lineOf b) t).branchCounters.get b =
      (if (s.framer (lineOf b)).mode.inProgress then s.countBranch b .rxTorn else s).branchCounters.get b := by
  simp only [State.transmit, setDriver_branchCounters, setMode_branchCounters, State.countRxTorn,
    branchOf_lineOf]

theorem SameBranch.countBranch {t : State} (h : SameBranch b s t) (c : BranchCounter) :
    SameBranch b (s.countBranch b c) (t.countBranch b c) where
  line := h.line
  framer := h.framer
  driver := h.driver
  counters := by simp [State.branchCount, h.counters]
  ownAddress := h.ownAddress

theorem SameBranch.setLine {t : State} (h : SameBranch b s t) (ln : BranchLine) :
    SameBranch b (s.setLine b ln) (t.setLine b ln) where
  framer := h.framer
  driver := h.driver
  counters := h.counters
  ownAddress := h.ownAddress

theorem SameBranch.transmit {t : State} (h : SameBranch b s t) (x : Telegram) :
    SameBranch b (s.transmit (lineOf b) x) (t.transmit (lineOf b) x) where
  line := by simpa using h.line
  framer := by simp [h.framer]
  counters := by
    rw [transmit_counters, transmit_counters, h.framer]
    split
    · exact (h.countBranch _).counters
    · exact h.counters
  ownAddress := by simpa using h.ownAddress

/-- What a branch does with a broadcast follows from its own parts. -/
theorem SameBranch.offer {t : State} (h : SameBranch b s t) :
    SameBranch b (s.offerBroadcast bc b) (t.offerBroadcast bc b) := by
  obtain drop | ⟨up, empty, busy⟩ | ⟨idle, empty⟩ := offer_cases s b
  · rw [offerBroadcast_dropped bc drop, offerBroadcast_dropped bc (by rwa [h.line])]
    exact h.countBranch _
  · rw [offerBroadcast_stored bc up empty busy, offerBroadcast_stored bc (by rwa [h.line])
      (by rwa [h.line]) (by rwa [h.line]), h.line]
    exact h.setLine _
  · rw [offerBroadcast_taken bc idle empty, offerBroadcast_taken bc (by rwa [h.line]) (by rwa [h.line]),
      h.line, h.ownAddress]
    exact (h.setLine _).transmit _

/-! ### A broadcast offered to every branch -/

/-- The offers to the other branches leave a branch as it is. -/
theorem offers_sameBranch (s : State) {l : List Branch} (h : b ∉ l) :
    SameBranch b s (l.foldl (fun s c => s.offerBroadcast bc c) s) := by
  induction l generalizing s with
  | nil => exact {}
  | cons c l ih =>
    simp only [List.mem_cons, not_or] at h
    exact (sameBranch_of_staysOn (offerBroadcast_staysOn bc s c) h.1).trans (ih _ h.2)

/-- A relayed broadcast leaves each branch as the offer to that branch alone does (R133). -/
theorem relayBroadcast_branch (s : State) (b : Branch) :
    SameBranch b (s.offerBroadcast bc b) (s.relayBroadcast bc) := by
  obtain ⟨before, after, split⟩ := List.append_of_mem (List.mem_finRange b)
  have once := List.nodup_finRange 4
  rw [split] at once
  obtain ⟨-, once, apart⟩ := List.nodup_append.mp once
  rw [State.relayBroadcast, split, List.foldl_append, List.foldl_cons]
  have earlier := offers_sameBranch bc s fun h => apart b h b List.mem_cons_self rfl
  exact (earlier.offer bc).trans (offers_sameBranch bc _ (List.nodup_cons.mp once).1)

/-- The fields that an offered broadcast can change. -/
def OutputsOnly (s t : State) : Prop :=
  t = { s with
    framers := t.framers, driverEnable := t.driverEnable, lines := t.lines,
    branchCounters := t.branchCounters }

theorem offerBroadcast_outputsOnly (s : State) (b : Branch) : OutputsOnly s (s.offerBroadcast bc b) := by
  obtain drop | ⟨up, empty, busy⟩ | ⟨idle, empty⟩ := offer_cases s b
  · rw [offerBroadcast_dropped bc drop]; rfl
  · rw [offerBroadcast_stored bc up empty busy]; rfl
  · rw [offerBroadcast_taken bc idle empty]
    simp only [OutputsOnly, State.transmit, State.countRxTorn, branchOf_lineOf]
    split <;> rfl

theorem OutputsOnly.trans {s t u : State} (h : OutputsOnly s t) (h' : OutputsOnly t u) :
    OutputsOnly s u := by
  rw [OutputsOnly] at h
  rw [OutputsOnly, h', h]

/-- The relay of a broadcast leaves the trunk and every other field as they are (R133). -/
theorem relayBroadcast_trunk (s : State) :
    (s.relayBroadcast bc).framer 0 = s.framer 0 ∧
    (s.relayBroadcast bc).driverEnable.get 0 = s.driverEnable.get 0 ∧
    OutputsOnly s (s.relayBroadcast bc) := by
  refine foldl_keeps_pred (fun u => u.framer 0 = s.framer 0 ∧
    u.driverEnable.get 0 = s.driverEnable.get 0 ∧ OutputsOnly s u) (fun u c hu => ?_) _ ⟨rfl, rfl, rfl⟩
  obtain ⟨framer, driver, outputs⟩ := hu
  have stays := offerBroadcast_staysOn bc u c
  exact ⟨(stays.framer 0 (zero_ne_lineOf c)).trans framer, (stays.driver 0 (zero_ne_lineOf c)).trans driver,
    outputs.trans (offerBroadcast_outputsOnly bc u c)⟩

end Offer

/-- A REQ with Dest 0 and a field operation code is relayed (R133). -/
theorem exec_broadcastRelay {s : State} {source seq code : Octet} {body : List Octet} (ready : TrunkReady s)
    (own : s.ownAddress ≠ 0) (hs : stationAddress source = true) (hb : bodyFits body = true)
    (hc : code.toNat ≤ 0x1F) :
    exec (.broadcastRelay source seq code body) s =
      .next (s.relayBroadcast { code := code, body := body }) := by
  have valid : telegramValid (request source 0 seq code body) = true := by
    simp only [telegramValid, request, kindPermits, hs, Bool.and_eq_true]
    exact ⟨⟨rfl, trivial⟩, hb⟩
  have relayed : s.classify (request source 0 seq code body) = .broadcast := by
    simp only [State.classify, request, if_neg own.symm, if_true, fieldCode, hc, decide_true]
  have taken := takeOnTrunk_ready ready valid
  rw [relayed] at taken
  exact taken

/-- Settles O18: each branch does with the broadcast what it would if it alone were offered it. -/
theorem broadcastOfferedToEveryBranch : Obligations.BroadcastOfferedToEveryBranch := by
  intro s source seq code body ready own hs hb hc
  refine ⟨_, exec_broadcastRelay ready own hs hb hc, fun b => ?_, relayBroadcast_trunk _ s⟩
  obtain ⟨line, framer, driver, counters, -⟩ := relayBroadcast_branch { code := code, body := body } s b
  rw [line, framer, driver, counters]
  refine ⟨fun drop => ?_, fun up empty busy => ?_, fun idle empty => ?_⟩
  · rw [offerBroadcast_dropped _ drop]
    exact ⟨rfl, rfl, rfl, rfl⟩
  · rw [offerBroadcast_stored _ up empty busy]
    exact ⟨by simp, rfl, rfl, rfl⟩
  · rw [offerBroadcast_taken _ idle empty]
    refine ⟨by simp, by simp [broadcastTelegram], by simp, (transmit_counters _ b _).trans ?_⟩
    simp only [setLine_reads]
    split <;> rfl

end Sys2Proof.ClaimantChoice

/-! SUPPORT. The events of an attempt on its branch line: the transmit completion, an echo mismatch and the
expiry of the answer window (R109 to R111), and the judging of the telegrams that a line hears (R112). -/

namespace Sys2Proof.LineEvents

-- Theorems elaborated side by side each hold a thread; one after another the whole text fits in memory.
set_option Elab.async false

open Sys2Proof.Machine Sys2Proof.Safety Sys2Proof.Laws Sys2Proof.StepAndResets

/-! ### The end of a transmission -/

theorem endTransmission_cut {s : State} {b : Branch} {a : Attempt} (h : Sends s b a) :
    s.endTransmission (lineOf b) = cut s b := by
  obtain ⟨-, -, transmits⟩ := h
  rw [State.endTransmission, if_pos transmits]
  rfl

@[simp] theorem cut_line (s : State) (b c : Branch) : (cut s b).line c = s.line c := rfl

/-- Counting and writing a line change places. -/
theorem countBranch_setLine (s : State) (b c : Branch) (k : BranchCounter) (ln : BranchLine) :
    (s.countBranch b k).setLine c ln = (s.setLine c ln).countBranch b k := rfl

section Sending

variable {s : State} {b : Branch} {a : Attempt}

theorem transmissionDone_of_idle (h : ∀ a, (s.line b).state ≠ .sending a) : s.transmissionDone b = s := by
  cases hst : (s.line b).state with
  | sending a => exact absurd hst (h a)
  | _ => simp only [State.transmissionDone, hst]

theorem echoFault_of_idle (h : ∀ a, (s.line b).state ≠ .sending a) : s.echoFault b = s := by
  cases hst : (s.line b).state with
  | sending a => exact absurd hst (h a)
  | _ => simp only [State.echoFault, hst]

/-- The state after the transmit completion of a line (R109). -/
def transmitted (s : State) (b : Branch) (st : LineState) (c : BranchCounter) : State :=
  ((cut s b).setLine b { s.line b with errors := 0, state := st }).countBranch b c

/-- A record or an orphan: the line listens (R109, R111). -/
theorem transmissionDone_exchange {x : Exchange} (h : Sends s b (.exchange x)) :
    s.transmissionDone b = transmitted s b (.listening x (s.line b).settings.window) .sent := by
  have ended := endTransmission_cut h
  obtain ⟨-, hst, -⟩ := h
  simp only [State.transmissionDone, hst, ended]
  simp [transmitted, State.setLineState, countBranch_setLine]

/-- A broadcast: the line settles (R109, R117). -/
theorem transmissionDone_broadcast {seq : Octet} (h : Sends s b (.broadcast seq)) :
    s.transmissionDone b = transmitted s b (.settling 4) .bcastSent := by
  have ended := endTransmission_cut h
  obtain ⟨-, hst, -⟩ := h
  simp only [State.transmissionDone, hst, ended]
  simp [transmitted, State.settle, State.setLineState, countBranch_setLine]

/-- The state after an echo mismatch has been counted (R110). -/
def mismatched (s : State) (b : Branch) (st : LineState) : State :=
  ((cut s b).setLine b { s.line b with errors := (s.line b).errors + 1, state := st }).countBranch b
    .lineErrors

/-- Below eight mismatches in a row the line settles, and the attempt fails (R110). -/
theorem echoFault_below (h : Sends s b a) (below : (s.line b).errors < 7) :
    s.echoFault b = (mismatched s b (.settling 4)).attemptFailed b a := by
  have ended := endTransmission_cut h
  obtain ⟨-, hst, -⟩ := h
  have few : (s.line b).errors + 1 < 8 := by omega
  simp only [State.echoFault, hst, ended, countBranch_reads, cut_line, setLine_line, if_true, few]
  simp [mismatched, State.settle, State.setLineState, countBranch_setLine]

/-- At the eighth the line faults (R122). -/
theorem echoFault_eighth (h : Sends s b a) (last : (s.line b).errors = 7) :
    s.echoFault b = (mismatched s b (.sending a)).lineDown b .faulted := by
  have ended := endTransmission_cut h
  obtain ⟨-, hst, -⟩ := h
  simp only [State.echoFault, hst, ended, countBranch_reads, cut_line, setLine_line, if_true, last]
  simp [mismatched, countBranch_setLine, last, ← hst]

end Sending

/-- Settles O32. -/
theorem transmitCompletionListensOrSettles : Obligations.TransmitCompletionListensOrSettles := by
  refine ⟨fun s b h => congrArg _ (whenRunning_same (transmissionDone_of_idle h)), ?_⟩
  intro s b a h ended
  have run : exec (.branchTransmitCompletion b) s = .next (s.transmissionDone b) :=
    congrArg _ (whenRunning_of_running h.1 _)
  rw [run]
  constructor
  · rintro x rfl
    exact congrArg _ (transmissionDone_exchange h)
  · rintro seq rfl
    exact congrArg _ (transmissionDone_broadcast h)

/-- Settles O33: below the eighth mismatch by what the attempt is of, and at the eighth. -/
theorem echoMismatchFailsOrFaults : Obligations.EchoMismatchFailsOrFaults := by
  refine ⟨fun s b cause h => congrArg _ (whenRunning_same (echoFault_of_idle h)), ?_⟩
  intro s b a cause h counted
  have run : exec (.echoMismatch b cause) s = .next (s.echoFault b) :=
    congrArg _ (whenRunning_of_running h.1 _)
  rw [run]
  refine ⟨fun below => ?_, fun last => congrArg _ (echoFault_eighth h last)⟩
  rw [echoFault_below h below]
  refine ⟨?_, ?_, ?_⟩
  · rintro x i rfl hx
    simp only [State.attemptFailed, hx]
    rfl
  · rintro x rfl hx
    simp only [State.attemptFailed, hx]
    rfl
  · rintro seq rfl
    rfl

/-! ### The answer window -/

section Window

variable {s : State} {b : Branch} {x : Exchange} {w : Word}

theorem windowExpired_record {i : SlotId} (h : (s.line b).state = .listening x w) (hx : x.record = some i) :
    s.windowExpired b = ((s.countBranch b .noAnswer).settle b).reportFailure i .noAnswer := by
  simp only [State.windowExpired, h, hx]

theorem windowExpired_orphan (h : (s.line b).state = .listening x w) (hx : x.record = none) :
    s.windowExpired b = (s.countBranch b .noAnswer).settle b := by
  simp only [State.windowExpired, h, hx]

theorem windowExpired_stopped (h : ∀ x w, (s.line b).state ≠ .listening x w) : s.windowExpired b = s := by
  cases hst : (s.line b).state with
  | listening x w => exact absurd hst (h x w)
  | _ => simp only [State.windowExpired, hst]

end Window

/-- Settles O34. -/
theorem windowExpiryEndsListening : Obligations.WindowExpiryEndsListening := by
  intro s b hr
  have run : exec (.answerWindowExpiry b) s = .next (s.windowExpired b) :=
    congrArg _ (whenRunning_of_running hr _)
  rw [run]
  exact ⟨fun x w hst => ⟨fun i hx => congrArg _ (windowExpired_record hst hx),
    fun hx => congrArg _ (windowExpired_orphan hst hx)⟩,
    fun stopped => congrArg _ (windowExpired_stopped stopped)⟩

/-! ### The table of answers -/

section Judge

variable {source : Octet} {t : Telegram}

theorem judge_leaf_other (h : t.source ≠ source) : (Sought.ask .leaf source).judge t = .stray := by
  simp only [Sought.judge, if_neg h]

theorem judge_leaf_source (h : t.source = source) : (Sought.ask .leaf source).judge t =
    if t.kind = .ans ∨ t.kind = .fault then .accept else .bad := by
  cases hk : t.kind <;> simp [Sought.judge, h, hk]

/-- A HELD from another source answers an ASK of a RELAY (R112). -/
theorem judge_relay_other (h : t.source ≠ source) : (Sought.ask .relay source).judge t =
    if t.kind = .held then .accept else .stray := by
  simp only [Sought.judge, if_neg h]

theorem judge_relay_source (h : t.source = source) : (Sought.ask .relay source).judge t =
    if t.kind = .ans ∨ t.kind = .fault ∨ t.kind = .held then .accept else .bad := by
  cases hk : t.kind <;> simp [Sought.judge, h, hk]

variable {kind : StationKind} {ticket : Octet}

theorem judge_collect_other (h : t.source ≠ source) :
    (Sought.collect kind source ticket).judge t = .stray := by
  simp only [Sought.judge, if_neg h]

theorem judge_collect_source (h : t.source = source) : (Sought.collect kind source ticket).judge t =
    if t.kind = .ans ∨ t.kind = .fault ∨ (t.kind = .wait ∧ t.code = ticket) then .accept else .bad := by
  cases hk : t.kind <;> simp [Sought.judge, h, hk]

end Judge

/-- Settles O35: a telegram that is not examined is a stray, and one that is comes to the row of what the
attempt looks for. -/
theorem answersJudgedByTheTable : Obligations.AnswersJudgedByTheTable := by
  intro x own t
  refine ⟨fun unexamined => if_neg unexamined, fun hd hs => ?_⟩
  have examined : x.judge own t = x.sought.judge t := if_pos ⟨hd, hs⟩
  rw [examined]
  refine ⟨fun source hx => ?_, fun source hx => ?_, fun kind source ticket hx => ?_⟩ <;> rw [hx]
  · exact ⟨judge_leaf_other, judge_leaf_source⟩
  · exact ⟨judge_relay_other, judge_relay_source⟩
  · exact ⟨judge_collect_other, judge_collect_source⟩

/-! ### What a line does with a telegram -/

section Take

variable {s : State} {b : Branch} {t : Telegram} {x : Exchange} {w : Word}

theorem branchTake_rejected {i : SlotId} (hst : (s.line b).state = .listening x w) (hx : x.record = some i)
    (bad : x.judge s.ownAddress t = .bad) :
    s.branchTake b t = ((s.countBranch b .badAnswer).settle b).reportFailure i .badAnswer := by
  simp only [State.branchTake, hst, bad, State.rejectAnswer, hx]

/-- An answer to an orphan is counted, whether it would be accepted or rejected (R120). -/
theorem branchTake_orphan (hst : (s.line b).state = .listening x w) (hx : x.record = none)
    (answers : x.judge s.ownAddress t ≠ .stray) :
    s.branchTake b t = (s.countBranch b .orphans).settle b := by
  cases verdict : x.judge s.ownAddress t with
  | stray => exact absurd verdict answers
  | accept => simp only [State.branchTake, hst, verdict, State.acceptAnswer, hx]
  | bad => simp only [State.branchTake, hst, verdict, State.rejectAnswer, hx]

theorem branchTake_stray (hst : (s.line b).state = .listening x w)
    (stray : x.judge s.ownAddress t = .stray) : s.branchTake b t = s.countBranch b .strays := by
  simp only [State.branchTake, hst, stray]

/-- A line that neither listens nor sends takes every telegram for a stray (R116). -/
theorem branchTake_quiet (unheard : ∀ x w, (s.line b).state ≠ .listening x w)
    (unsent : ∀ a, (s.line b).state ≠ .sending a) : s.branchTake b t = s.countBranch b .strays := by
  cases hst : (s.line b).state with
  | listening x w => exact absurd hst (unheard x w)
  | sending a => exact absurd hst (unsent a)
  | _ => simp only [State.branchTake, hst]

end Take

/-- Settles O38. -/
theorem rejectedOrphanedAndStrayTelegrams : Obligations.RejectedOrphanedAndStrayTelegrams := by
  intro s b t h
  rw [branchTelegram_heard h]
  exact ⟨fun x w hst => ⟨fun i hx bad => congrArg _ (branchTake_rejected hst hx bad),
    fun hx answers => congrArg _ (branchTake_orphan hst hx answers),
    fun stray => congrArg _ (branchTake_stray hst stray)⟩,
    fun unheard unsent => congrArg _ (branchTake_quiet unheard unsent)⟩

end Sys2Proof.LineEvents

/-! SUPPORT. The management of the lines: the reports of IDENTIFY, READ_LINE and READ_RECORDS (R101, R142, R151,
R155, R157), and WRITE_LINE with the octets of settings in range (R99, R141, R156). -/

namespace Sys2Proof.LineManagement

-- Theorems elaborated side by side each hold a thread; one after another the whole text fits in memory.
set_option Elab.async false

open Sys2Proof.Machine Sys2Proof.Safety Sys2Proof.Laws Sys2Proof.TableReads Sys2Proof.TableGenerations

/-! ### Reports -/

/-- An operation that answers and leaves the state as it is, taken (R145). -/
theorem takeOnTrunk_report {s : State} {source seq code : Octet} {body report : List Octet}
    (ready : ManagementReady s) (hs : stationAddress source = true) (hb : bodyFits body = true)
    (h : operate s (ownRequest s source seq code body) = (.ans report, s)) :
    takeOnTrunk (ownRequest s source seq code body) s =
      .next (answering s (ownAnswer s source seq .ans code report)) := by
  rw [takeOnTrunk_own ready hs hb, State.manage, h]
  rfl

theorem branchNumber_ne_zero (b : Branch) : branchNumber b ≠ 0 := by revert b; decide

theorem line_fits_of_branch (b : Branch) : within 0 4 (branchNumber b).toNat = true := by revert b; decide

theorem opReadLine_branch (s : State) (b : Branch) :
    opReadLine s [branchNumber b] = (.ans (s.branchReport b), s) := by
  rw [opReadLine, withFields_of_fitting (by simpa using line_fits_of_branch b),
    if_neg (branchNumber_ne_zero b), branchOfNumber_branchNumber]

/-- The report of a branch begins with its settings (R101, R155). -/
theorem branchReport_eq (s : State) (b : Branch) : s.branchReport b =
    settingsOctets (s.line b).settings ++
      [(s.line b).state.code, octetOf (s.activeCount b), octetOf (s.line b).queue.length,
        boolCode (s.line b).broadcast.isSome, octetOf (s.line b).errors] := by
  simp [State.branchReport, settingsOctets]

section Pairs

variable {α β : Type} (f g : α → β)

/-- The octets of the slots, two for each. -/
def pairs (l : List α) : List β := l.flatMap fun a => [f a, g a]

theorem pairs_length (l : List α) : (pairs f g l).length = 2 * l.length := by
  simp [pairs, List.length_flatMap, Nat.mul_comm]

theorem pairs_getElem? (l : List α) (n : Nat) :
    (pairs f g l)[2 * n]? = l[n]?.map f ∧ (pairs f g l)[2 * n + 1]? = l[n]?.map g := by
  induction l generalizing n with
  | nil => simp [pairs]
  | cons a l ih =>
    have cons : pairs f g (a :: l) = f a :: g a :: pairs f g l := rfl
    cases n with
    | zero => simp [cons]
    | succ n =>
      have even : 2 * (n + 1) = 2 * n + 2 := rfl
      simpa [cons, even] using ih n

end Pairs

/-- Settles O22. -/
theorem reportsShowTheState : Obligations.ReportsShowTheState := by
  intro s source seq ready hs
  refine ⟨takeOnTrunk_report ready hs rfl rfl, takeOnTrunk_report ready hs rfl rfl, fun b => ?_, ?_⟩
  · rw [← branchReport_eq]
    exact takeOnTrunk_report ready hs rfl (opReadLine_branch s b)
  · refine ⟨pairs (fun i => slotCode (s.record i)) s.ticket (List.finRange 16),
      takeOnTrunk_report ready hs rfl rfl, by simp [pairs_length], fun i => ?_⟩
    obtain ⟨code, ticket⟩ := pairs_getElem? (fun i => slotCode (s.record i)) s.ticket (List.finRange 16) i.val
    rw [code, ticket]
    simp [State.ticket]

/-! ### WRITE_LINE -/

theorem boolCode_fits (b : Bool) : within 0 1 (boolCode b).toNat = true := by cases b <;> rfl

theorem boolCode_eq_one (b : Bool) : decide (boolCode b = 1) = b := by cases b <;> rfl

theorem rateOfCode_rateOctet (r : RateCode) : rateOfCode (rateOctet r) = r := ofNat_octetOf (by decide) r

/-- The settings of the trunk, in range (R141). -/
theorem opWriteLine_trunk (s : State) {hold linger : Word} (hh : within 100 60000 hold.toNat = true)
    (hl : within 100 10000 linger.toNat = true) :
    opWriteLine s (0 :: (wordOctets hold ++ wordOctets linger)) =
      (.ans [], { s with holdTime := hold, lingerTime := linger }) := by
  simp only [wordOctets, List.cons_append, List.nil_append, opWriteLine, wordOf_highOctet_lowOctet]
  rw [withFields_of_fitting (by simp [within]), if_neg (by simp), withFields_of_fitting (by simp [hh, hl])]

/-- The settings of a branch, in range (R99, R156). -/
theorem opWriteLine_branch (s : State) (b : Branch) {c : Settings} (fits : settingsInRange c = true) :
    opWriteLine s (branchNumber b :: settingsOctets c) = (.ans [], s.writeBranch b c) := by
  simp only [settingsInRange, Bool.and_eq_true] at fits
  obtain ⟨⟨⟨⟨window, delay⟩, interval⟩, lifetime⟩, quota⟩ := fits
  have rate : within 0 5 (rateOctet c.rate).toNat = true := octetOf_fin_fits (by decide) (by decide) c.rate
  simp only [settingsOctets, wordOctets, List.cons_append, List.nil_append, opWriteLine,
    wordOf_highOctet_lowOctet, branchOfNumber_branchNumber, rateOfCode_rateOctet, boolCode_eq_one]
  rw [withFields_of_fitting (by simpa using line_fits_of_branch b), if_neg (branchNumber_ne_zero b),
    withFields_of_fitting
      (by simp [boolCode_fits, rate, window, delay, interval, lifetime, quota])]

section Written

variable {s : State} {b : Branch} {c : Settings}

/-- The controller with new settings: a rate other than the one in use becomes pending (R99, R100). -/
def withSettings (s : State) (b : Branch) (c : Settings) : BranchLine :=
  { s.line b with
    settings := c, pendingRate := if c.rate = (s.framer (lineOf b)).rate then none else some c.rate }

theorem writeBranch_up (on : c.enable = true) (up : (s.line b).state.isDown = false) :
    s.writeBranch b c = s.setLine b (withSettings s b c) := by
  simp [State.writeBranch, State.takeSettings, State.enable, on, up, withSettings]

theorem writeBranch_enters (on : c.enable = true) (down : (s.line b).state.isDown = true) :
    s.writeBranch b c = (s.setLine b { withSettings s b c with errors := 0 }).enterIdle b := by
  simp [State.writeBranch, State.takeSettings, State.enable, on, down, withSettings]

theorem disable_of_off (off : (s.line b).state = .off) : s.disable b = s := by
  simp only [State.disable, off]

theorem disable_of_ne_off (on : (s.line b).state ≠ .off) : s.disable b = s.lineDown b .off := by
  cases hst : (s.line b).state with
  | off => exact absurd hst on
  | _ => simp only [State.disable, hst]

theorem writeBranch_off (h : c.enable = false) : s.writeBranch b c =
    (s.setLine b (withSettings s b c)).disable b := by
  simp [State.writeBranch, State.takeSettings, h, withSettings]

end Written

/-- WRITE_LINE of a branch, taken and answered (R145, R156). -/
theorem exec_writeLine_branch {s : State} {source seq : Octet} (ready : ManagementReady s)
    (hs : stationAddress source = true) (b : Branch) {c : Settings} (fits : settingsInRange c = true) :
    exec (.writeLine source seq (branchNumber b :: settingsOctets c)) s =
      .next (answering (s.writeBranch b c) (ownAnswer s source seq .ans 0x89 [])) := by
  have taken : exec (.writeLine source seq (branchNumber b :: settingsOctets c)) s =
      .next ((opWriteLine s (branchNumber b :: settingsOctets c)).2.answerReply
        (ownRequest s source seq 0x89 (branchNumber b :: settingsOctets c))
        (opWriteLine s (branchNumber b :: settingsOctets c)).1) := takeOnTrunk_own ready hs rfl
  have own : (s.writeBranch b c).ownAddress = s.ownAddress := by simp
  rw [taken, opWriteLine_branch s b fits]
  simp only [State.answerReply, own]
  rfl

/-- Settles O26: the trunk's settings, and those of a branch by enable and the state of the line. -/
theorem writeLineTakesSettings : Obligations.WriteLineTakesSettings := by
  intro s source seq ready hs
  refine ⟨fun hold linger hh hl => ?_, ?_⟩
  · have taken : exec (.writeLine source seq (0 :: (wordOctets hold ++ wordOctets linger))) s =
        .next (s.manage (ownRequest s source seq 0x89 (0 :: (wordOctets hold ++ wordOctets linger)))) :=
      takeOnTrunk_own ready hs rfl
    have written : operate s (ownRequest s source seq 0x89 (0 :: (wordOctets hold ++ wordOctets linger))) =
        (.ans [], { s with holdTime := hold, lingerTime := linger }) := opWriteLine_trunk s hh hl
    rw [taken, State.manage, written]
    rfl
  · intro b c fits rate ln done run
    have answered : run = .next (done (s.writeBranch b c)) := exec_writeLine_branch ready hs b fits
    rw [answered]
    refine ⟨fun on up => ?_, fun on down => ?_, fun off already => ?_, fun off before => ?_⟩
    · rw [writeBranch_up on up]; rfl
    · rw [writeBranch_enters on down]; rfl
    · rw [writeBranch_off off, disable_of_off (by simpa [withSettings] using already)]; rfl
    · rw [writeBranch_off off, disable_of_ne_off (by simpa [withSettings] using before)]; rfl

end Sys2Proof.LineManagement

/-! SUPPORT. The claim of a telegram on the trunk (R130 to R135), and the overruns and ignored telegrams in
TURNAROUND (R138, R139). -/

namespace Sys2Proof.TrunkClaims

-- Theorems elaborated side by side each hold a thread; one after another the whole text fits in memory.
set_option Elab.async false

open Sys2Proof.Machine Sys2Proof.Safety Sys2Proof.Laws Sys2Proof.Receptions Sys2Proof.Tickets

/-! ### What claims a telegram -/

section Claim

variable (s : State) {t : Telegram}

/-- What claims a REQ: the own address, a broadcast of a field code, or the slot that represents its Dest
(R131 to R133). -/
theorem classify_req_eq_ignored_iff (hk : t.kind = .req) :
    s.classify t = .ignored ↔
      (t.dest ≠ s.ownAddress ∧ t.dest = 0 ∧ 0x1F < t.code.toNat) ∨
      (t.dest ≠ s.ownAddress ∧ t.dest ≠ 0 ∧
        ∀ d e, s.liveBank.directory.get d = some e → e.logical ≠ t.dest) := by
  simp only [State.classify, hk]
  by_cases own : t.dest = s.ownAddress
  · simp [own]
  · by_cases broadcast : t.dest = 0
    · rw [if_neg own, if_pos broadcast]
      by_cases field : t.code.toNat ≤ 0x1F <;> simp_all [fieldCode]
    · rw [if_neg own, if_neg broadcast, ← find_none_iff]
      cases hf : s.liveBank.find t.dest <;> simp_all

theorem classify_collect_eq_ignored_iff (hk : t.kind = .collect) :
    s.classify t = .ignored ↔ t.dest ≠ s.ownAddress := by
  simp only [State.classify, hk]
  split <;> simp_all

/-- The claim leaves unclaimed just what passes the bridge by (R135). -/
theorem classify_eq_ignored_iff (t : Telegram) : s.classify t = .ignored ↔ PassesBy s t := by
  cases hk : t.kind with
  | req => simp [classify_req_eq_ignored_iff s hk, PassesBy, hk]
  | collect => simp [classify_collect_eq_ignored_iff s hk, PassesBy, hk]
  | ans | fault | held | wait => simp [State.classify, PassesBy, hk]

end Claim

/-! ### What does not pass by -/

section Claimed

variable {s : State} {t : Telegram}

theorem not_passesBy_of_own (hk : t.kind = .req ∨ t.kind = .collect) (hd : t.dest = s.ownAddress) :
    ¬ PassesBy s t := by
  obtain hk | hk := hk <;> simp [PassesBy, hk, hd]

theorem not_passesBy_of_represented {d : Fin 64} {e : DirEntry} (hk : t.kind = .req)
    (h0 : t.dest ≠ 0) (hd : s.liveBank.directory.get d = some e) (he : e.logical = t.dest) :
    ¬ PassesBy s t := by
  rintro (⟨hr, -⟩ | ⟨hc, -⟩ | ⟨-, -, hz, -⟩ | ⟨-, -, -, unheld⟩)
  · exact hr hk
  · simp [hk] at hc
  · exact h0 hz
  · exact unheld d e hd he

theorem not_passesBy_of_broadcast (hk : t.kind = .req) (h0 : t.dest = 0)
    (hc : t.code.toNat ≤ 0x1F) : ¬ PassesBy s t := by
  rintro (⟨hr, -⟩ | ⟨hk', -⟩ | ⟨-, -, -, high⟩ | ⟨-, -, hz, -⟩)
  · exact hr hk
  · simp [hk] at hk'
  · exact hc.not_gt high
  · exact hz h0

end Claimed

/-! ### A telegram that completes in TURNAROUND -/

section Turnaround

variable {s : State} {t a : Telegram} {n : Nat}

theorem restartTurnaround_turnaround (ha : s.answer = .turnaround a n) :
    s.restartTurnaround 0 = answering s a := by
  simp [State.restartTurnaround, ha, answering]

/-- The claim reads neither the answer buffer nor the timer. -/
theorem passesBy_answering : PassesBy (answering s a) t ↔ PassesBy s t := Iff.rfl

/-- The timer restarts with the octets (R138), then the trunk port takes the telegram. -/
theorem takeOnTrunk_turnaround (hr : s.inReset = false) (hm : (s.framer 0).mode = .hunt)
    (ha : s.answer = .turnaround a n) (hv : telegramValid t = true) :
    takeOnTrunk t s = .next ((answering s a).trunkTake t) := by
  have hunting : (answering s a).setMode 0 .hunt = answering s a := setMode_self hm
  simp [takeOnTrunk, whenRunning_of_running hr, State.receiveTelegram, hm,
    FramerMode.isTransmitting, restartTurnaround_turnaround ha, hunting, judgeStructure_zero hv]

theorem takeOnTrunk_passedBy (hr : s.inReset = false) (hm : (s.framer 0).mode = .hunt)
    (ha : s.answer = .turnaround a n) (hv : telegramValid t = true) (hp : PassesBy s t) :
    takeOnTrunk t s = .next ((answering s a).countTrunk .ignored) :=
  (takeOnTrunk_turnaround hr hm ha hv).trans
    (congrArg _ (if_pos ((classify_eq_ignored_iff _ t).mpr (passesBy_answering.mpr hp))))

theorem takeOnTrunk_overrun (hr : s.inReset = false) (hm : (s.framer 0).mode = .hunt)
    (ha : s.answer = .turnaround a n) (hv : telegramValid t = true) (hp : ¬ PassesBy s t) :
    takeOnTrunk t s = .next ((answering s a).countTrunk .overrun) :=
  (takeOnTrunk_turnaround hr hm ha hv).trans
    (congrArg _ (if_neg fun hi => hp (passesBy_answering.mp ((classify_eq_ignored_iff _ t).mp hi))))

end Turnaround

/-! ### The telegrams that the commands carry -/

theorem request_valid {source target seq code : Octet} {body : List Octet} (ht : target.toNat ≤ 250)
    (hs : stationAddress source = true) (hb : bodyFits body = true) :
    telegramValid (request source target seq code body) = true := by
  simp only [telegramValid, request, kindPermits, Bool.and_eq_true]
  exact ⟨⟨decide_eq_true ht, hs⟩, hb⟩

theorem collectOf_valid {s : State} {source seq ticket opening : Octet}
    (ho : s.ownAddress.toNat ≤ 250) (hs : stationAddress source = true) :
    telegramValid (collectOf s source seq ticket opening) = true := by
  simp [telegramValid, collectOf, kindPermits, ho, hs]

theorem stationAddress_range {a : Octet} (h : stationAddress a = true) :
    1 ≤ a.toNat ∧ a.toNat ≤ 250 := by simpa [stationAddress] using h

/-- Each management operation is the REQ to the own address with its code (R132, R150). -/
theorem exec_operation {source seq : Octet} {body : List Octet} (s : State) {op : Octet × Instr}
    (h : op ∈ operations source seq body) :
    exec op.2 s = takeOnTrunk (ownRequest s source seq op.1 body) s := by
  simp only [operations, List.mem_cons, List.not_mem_nil, or_false] at h
  rcases h with rfl | rfl | rfl | rfl | rfl | rfl | rfl | rfl | rfl | rfl | rfl | rfl | rfl | rfl <;> rfl

/-- Settles O10: the claim is decided by the telegram's content (`classify_eq_ignored_iff`), and the
telegram of each command in turn is one that the bridge claims. -/
theorem ignoredAndOverrunTelegrams : Obligations.IgnoredAndOverrunTelegrams := by
  refine ⟨fun s t hr hm hv => ⟨fun hp => ⟨fun ha => ?_, fun a n ha => ?_⟩, fun hp a n ha => ?_⟩, ?_⟩
  · exact (takeOnTrunk_ready ⟨hr, hm, ha⟩ hv).trans
      (by rw [(classify_eq_ignored_iff s t).mpr hp, State.serve])
  · exact takeOnTrunk_passedBy hr hm ha hv hp
  · exact takeOnTrunk_overrun hr hm ha hv hp
  · intro s a n source seq code body hr hm ha hs hb overrun
    have overruns : ∀ {t}, telegramValid t = true → ¬ PassesBy s t →
        takeOnTrunk t s = .next overrun := fun hv hp => takeOnTrunk_overrun hr hm ha hv hp
    refine ⟨fun target d e ht ho hd he => ?_, fun ho hc => ?_, fun hown => ?_⟩
    · obtain ⟨low, high⟩ := stationAddress_range ht
      have h0 : target ≠ 0 := by rintro rfl; simp at low
      exact overruns (request_valid high hs hb) (not_passesBy_of_represented rfl h0 hd he)
    · exact overruns (request_valid (by simp) hs hb) (not_passesBy_of_broadcast rfl rfl hc)
    · have high := (stationAddress_range hown).2
      have own : ∀ c, takeOnTrunk (ownRequest s source seq c body) s = .next overrun := fun c =>
        overruns (request_valid high hs hb) (not_passesBy_of_own (.inl rfl) rfl)
      exact ⟨fun ticket opening => overruns (collectOf_valid high hs) (not_passesBy_of_own (.inr rfl) rfl),
        own code, fun op hop => (exec_operation s hop).trans (own op.1)⟩

end Sys2Proof.TrunkClaims

/-! SUPPORT. The refusals of the management operations: the checks of a Body in their order, against the checks
that each operation makes (R146 to R150), and what an operation that its Body passes can answer (R145, R149). -/

namespace Sys2Proof.Refusals

-- Theorems elaborated side by side each hold a thread; one after another the whole text fits in memory.
set_option Elab.async false

open Sys2Proof.Machine Sys2Proof.Safety Sys2Proof.Laws Sys2Proof.TableGenerations

/-! ### What an operation replies to the checks of its Body -/

/-- The replies that an operation can make where its Body has these checks: BAD_ARGUMENT for the first that
fails; where none fails, another FAULT that changes nothing, or ANS. No operation changes the own address, and
none but READ_COUNTERS the trunk's counters. -/
inductive Judged (s : State) (code : Octet) (checks : List (Octet × Bool)) : Reply × State → Prop
  | badArgument {detail : Octet} (fails : firstOutOfRange checks = some detail) :
      Judged s code checks (badArgument s detail)
  | refused {reason : Reason} {detail : Option Octet} (passes : firstOutOfRange checks = none)
      (other : reason ≠ .badArgument) : Judged s code checks (.fault reason detail, s)
  | answered {report : List Octet} {t : State} (passes : firstOutOfRange checks = none)
      (own : t.ownAddress = s.ownAddress)
      (counters : code ≠ 0x8C → t.trunkCounters = s.trunkCounters) :
      Judged s code checks (.ans report, t)

theorem firstOutOfRange_append (first rest : List (Octet × Bool)) :
    firstOutOfRange (first ++ rest) = (firstOutOfRange first).or (firstOutOfRange rest) := by
  simp [firstOutOfRange, List.find?_append, Option.map_or]

section Judged

variable {s : State} {code : Octet} {body report : List Octet} {first rest : List (Octet × Bool)}
  {run : Reply × State}

/-- Only the first check that fails counts. -/
theorem Judged.congr (j : Judged s code rest run) (h : firstOutOfRange first = firstOutOfRange rest) :
    Judged s code first run := by
  cases j with
  | badArgument fails => exact .badArgument (h.trans fails)
  | refused passes other => exact .refused (h.trans passes) other
  | answered passes own counters => exact .answered (h.trans passes) own counters

/-- A length that is permitted leaves the verdict to the checks after it. -/
theorem Judged.length (j : Judged s code rest run) : Judged s code ((255, true) :: rest) run :=
  j.congr rfl

/-- The fields that an operation examines come before the checks of what it then runs. -/
theorem Judged.withFields (j : Judged s code rest run) :
    Judged s code (first ++ rest) (Machine.withFields s first run) := by
  have verdict := firstOutOfRange_append first rest
  cases h : firstOutOfRange first with
  | some detail =>
    simp only [Machine.withFields, h]
    exact .badArgument (by rw [verdict, h]; rfl)
  | none =>
    simp only [Machine.withFields, h]
    exact j.congr (by rw [verdict, h]; rfl)

/-- The fields are the last checks. -/
theorem Judged.lastFields (j : Judged s code [] run) : Judged s code first (Machine.withFields s first run) := by
  simpa using j.withFields (first := first)

/-- An answer that leaves the state as it was. -/
theorem Judged.unchanged : Judged s code [] (.ans report, s) := .answered rfl rfl fun _ => rfl

theorem Judged.noStage : Judged s code [] (Machine.noStage s) := .refused rfl (by decide)

theorem Judged.bankRead (selector : Octet) (report : Bank → List Octet) :
    Judged s code [] (bankRead s selector report) := by
  unfold Machine.bankRead
  split
  · exact .unchanged
  · split
    · exact .noStage
    · exact .unchanged
    · exact .unchanged

theorem Judged.stagedWrite (edit : Bank → Bank) : Judged s code [] (Machine.stagedWrite s edit) := by
  obtain ⟨-, h⟩ | ⟨-, h⟩ := stagedWrite_cases s edit <;> rw [h]
  · exact .answered rfl (by simp) fun _ => by simp
  · exact .noStage

/-- A length that no item of the operation takes fails the first check (R148). -/
theorem Judged.badLength (h : body.length ∉ permittedLengths code) :
    Judged s code (bodyChecks code body) (Machine.badArgument s 255) :=
  .badArgument (by simp [firstOutOfRange, bodyChecks, h])

end Judged

/-! ### Each operation -/

section Operations

variable (s : State) (body : List Octet)

/-- The operations that take an empty Body (R148). -/
theorem Judged.withEmptyBody {code : Octet} {run : Reply × State} (j : Judged s code [] run)
    (empty : ∀ body, bodyChecks code body = [(255, [0].contains body.length)]) :
    Judged s code (bodyChecks code body) (Machine.withEmptyBody s body run) := by
  rw [empty]
  obtain ⟨rfl, h⟩ | ⟨filled, h⟩ := withEmptyBody_cases s body run <;> rw [h]
  · exact j.length
  · exact .badArgument (by simp [firstOutOfRange, filled])

theorem opIdentify_judged : Judged s 0x80 (bodyChecks 0x80 body) (opIdentify s body) :=
  .withEmptyBody s body .unchanged fun _ => rfl

theorem opReadSlot_judged : Judged s 0x81 (bodyChecks 0x81 body) (opReadSlot s body) := by
  unfold opReadSlot
  split
  · exact .length (.lastFields (.bankRead _ _))
  · rename_i other
    exact .badLength fun h => match body, List.mem_singleton.mp h with
      | [_, _], _ => other _ _ rfl

theorem opWriteSlot_judged : Judged s 0x82 (bodyChecks 0x82 body) (opWriteSlot s body) := by
  unfold opWriteSlot
  split
  · rename_i kind _ _ _ _
    have leaf : kind = 0 ↔ kind.toNat = 0 := BitVec.toNat_eq
    simp only [leaf]
    exact .length (.lastFields (.stagedWrite _))
  · rename_i other
    exact .badLength fun h => match body, List.mem_singleton.mp h with
      | [_, _, _, _, _, _, _, _], _ => other _ _ _ _ _ _ _ _ rfl

theorem opClearSlot_judged : Judged s 0x83 (bodyChecks 0x83 body) (opClearSlot s body) := by
  unfold opClearSlot
  split
  · exact .length (.lastFields (.stagedWrite _))
  · rename_i other
    exact .badLength fun h => match body, List.mem_singleton.mp h with
      | [_], _ => other _ rfl

theorem opReadProfile_judged : Judged s 0x84 (bodyChecks 0x84 body) (opReadProfile s body) := by
  unfold opReadProfile
  split
  · exact .length (.lastFields (.bankRead _ _))
  · rename_i other
    exact .badLength fun h => match body, List.mem_singleton.mp h with
      | [_, _, _], _ => other _ _ _ rfl

/-- The checks of WRITE_PROFILE after the length that some item takes (R85, R148). -/
theorem bodyChecks_writeProfile (profile item : Octet) {value : List Octet}
    (h : value.length = 1 ∨ value.length = 2) :
    bodyChecks 0x85 (profile :: item :: value) =
      (255, true) :: ([(0, within 0 7 profile.toNat), (1, within 0 48 item.toNat)] ++
        ((255, value.length + 2 == if item.toNat ≤ 32 then 4 else 3) ::
          if item.toNat ≤ 31 then [(3, within 0 3 (value.getD 1 0).toNat)] else [])) := by
  obtain h | h := h <;> simp [bodyChecks, permittedLengths, h, octetOf]

theorem opWriteProfile_judged : Judged s 0x85 (bodyChecks 0x85 body) (opWriteProfile s body) := by
  unfold opWriteProfile
  split
  · rw [bodyChecks_writeProfile _ _ (.inl rfl)]
    refine .length (.withFields ?_)
    split
    · exact .badArgument (by simp [firstOutOfRange])
    · rename_i fault
      rw [if_neg (by omega)]
      exact .length (.stagedWrite _)
  · rename_i profile item first second
    rw [bodyChecks_writeProfile _ _ (.inr rfl)]
    refine .length (.withFields ?_)
    by_cases fault : 32 < item.toNat
    · rw [if_pos fault, if_neg (by omega)]
      exact .badArgument rfl
    · rw [if_neg fault, if_pos (by omega)]
      refine .length ?_
      by_cases offset : item.toNat = 32
      · rw [if_pos offset, if_neg (by omega)]
        exact .stagedWrite _
      · rw [if_neg offset, if_pos (by omega)]
        exact .lastFields (.stagedWrite _)
  · rename_i other other'
    refine .badLength fun h => (List.mem_pair.mp h).elim (fun h => ?_) fun h => ?_
    · exact match body, h with | [_, _, _], _ => other _ _ _ rfl
    · exact match body, h with | [_, _, _, _], _ => other' _ _ _ _ rfl

theorem opCommit_judged : Judged s 0x86 (bodyChecks 0x86 body) (opCommit s body) := by
  by_cases h : body.length = 1
  · obtain ⟨expected, rfl⟩ := List.length_eq_one_iff.mp h
    refine .length (rest := []) ?_
    simp only [opCommit]
    split
    · exact .refused rfl (by decide)
    · split
      · exact .refused rfl (by decide)
      · split
        · exact .refused rfl (by decide)
        · split
          · exact .refused rfl (by decide)
          · exact .answered rfl (by simp) fun _ => by simp
  · rw [opCommit_of_length h]
    exact .badLength fun hm => h (List.mem_singleton.mp hm)

theorem opRetire_judged : Judged s 0x87 (bodyChecks 0x87 body) (opRetire s body) := by
  refine .withEmptyBody s body ?_ fun _ => rfl
  split
  · exact .answered rfl (by simp) fun _ => by simp
  · exact .unchanged
  · exact .unchanged

theorem opReadLine_judged : Judged s 0x88 (bodyChecks 0x88 body) (opReadLine s body) := by
  unfold opReadLine
  split
  · refine .length (.lastFields ?_)
    split
    · exact .unchanged
    · exact .unchanged
  · rename_i other
    exact .badLength fun h => match body, List.mem_singleton.mp h with
      | [_], _ => other _ rfl

theorem wordOf_toNat (high low : Octet) : (wordOf high low).toNat = high.toNat * 256 + low.toNat := by
  rw [wordOf, BitVec.toNat_append, ← Nat.shiftLeft_add_eq_or_of_lt low.isLt, Nat.shiftLeft_eq]

/-- WRITE_LINE with the length that the other kind of line takes (R148, R156). -/
theorem bodyChecks_writeLine_wrong {line : Octet} {value : List Octet}
    (h : (value.length = 4 ∧ line ≠ 0) ∨ (value.length = 11 ∧ line = 0)) :
    ∃ rest, bodyChecks 0x89 (line :: value) =
      (255, true) :: ([(0, within 0 4 line.toNat)] ++ (255, false) :: rest) := by
  have trunk : line = 0 ↔ line.toNat = 0 := BitVec.toNat_eq
  rw [ne_eq, trunk] at h
  obtain ⟨length, other⟩ | ⟨length, other⟩ := h
  all_goals exact ⟨_, by simp [bodyChecks, permittedLengths, length, other, octetOf]; rfl⟩

theorem bodyChecks_writeLine_trunk (h1 h0 l1 l0 : Octet) :
    bodyChecks 0x89 [0, h1, h0, l1, l0] =
      (255, true) :: ([(0, within 0 4 (0 : Octet).toNat)] ++ (255, true) ::
        [(1, within 100 60000 (wordOf h1 h0).toNat), (3, within 100 10000 (wordOf l1 l0).toNat)]) := by
  simp only [wordOf_toNat]
  rfl

theorem bodyChecks_writeLine_branch {line : Octet} (branch : line ≠ 0)
    (enable rate w1 w0 d1 d0 c1 c0 x1 x0 quota : Octet) :
    bodyChecks 0x89 [line, enable, rate, w1, w0, d1, d0, c1, c0, x1, x0, quota] =
      (255, true) :: ([(0, within 0 4 line.toNat)] ++ (255, true) ::
        [(1, within 0 1 enable.toNat), (2, within 0 5 rate.toNat),
         (3, within 5 1000 (wordOf w1 w0).toNat), (5, within 0 5000 (wordOf d1 d0).toNat),
         (7, within 10 10000 (wordOf c1 c0).toNat), (9, within 100 60000 (wordOf x1 x0).toNat),
         (11, within 1 16 quota.toNat)]) := by
  have nonzero : line.toNat ≠ 0 := fun h => branch (BitVec.toNat_eq.mpr h)
  simp [bodyChecks, permittedLengths, nonzero, wordOf_toNat, octetOf]

theorem opWriteLine_judged : Judged s 0x89 (bodyChecks 0x89 body) (opWriteLine s body) := by
  unfold opWriteLine
  split
  · rename_i line h1 h0 l1 l0
    by_cases trunk : line = 0
    · subst trunk
      rw [bodyChecks_writeLine_trunk, if_neg (by simp)]
      exact .length (.withFields (.length (.lastFields (.answered rfl rfl fun _ => rfl))))
    · obtain ⟨rest, checks⟩ := bodyChecks_writeLine_wrong (value := [h1, h0, l1, l0]) (.inl ⟨rfl, trunk⟩)
      rw [checks, if_pos trunk]
      exact .length (.withFields (.badArgument rfl))
  · rename_i line enable rate w1 w0 d1 d0 c1 c0 x1 x0 quota
    by_cases trunk : line = 0
    · obtain ⟨rest, checks⟩ := bodyChecks_writeLine_wrong
        (value := [enable, rate, w1, w0, d1, d0, c1, c0, x1, x0, quota]) (.inr ⟨rfl, trunk⟩)
      rw [checks, if_pos trunk]
      exact .length (.withFields (.badArgument rfl))
    · rw [bodyChecks_writeLine_branch trunk, if_neg trunk]
      exact .length (.withFields (.length (.lastFields (.answered rfl (by simp) fun _ => by simp))))
  · rename_i other other'
    refine .badLength fun h => (List.mem_pair.mp h).elim (fun h => ?_) fun h => ?_
    · exact match body, h with | [_, _, _, _, _], _ => other _ _ _ _ _ rfl
    · exact match body, h with
        | [_, _, _, _, _, _, _, _, _, _, _, _], _ => other' _ _ _ _ _ _ _ _ _ _ _ _ rfl

theorem opReadRecords_judged : Judged s 0x8A (bodyChecks 0x8A body) (opReadRecords s body) :=
  .withEmptyBody s body .unchanged fun _ => rfl

theorem opCancel_judged (source : Octet) : Judged s 0x8B (bodyChecks 0x8B body) (opCancel s source body) := by
  unfold opCancel
  split
  · refine .length (rest := []) ?_
    split
    · exact .refused rfl (by decide)
    · split
      · exact .answered rfl (by simp) fun _ => by simp
      · exact .unchanged
  · rename_i other
    exact .badLength fun h => match body, List.mem_singleton.mp h with
      | [_, _], _ => other _ _ rfl

theorem opReadCounters_judged : Judged s 0x8C (bodyChecks 0x8C body) (opReadCounters s body) := by
  unfold opReadCounters
  split
  · exact .length (.lastFields (.answered rfl (by split <;> simp) fun h => absurd rfl h))
  · rename_i other
    exact .badLength fun h => match body, List.mem_singleton.mp h with
      | [_, _], _ => other _ _ rfl

theorem opRestart_judged : Judged s 0x8D (bodyChecks 0x8D body) (opRestart s body) :=
  .withEmptyBody s body (.answered rfl rfl fun _ => rfl) fun _ => rfl

end Operations

/-- Every operation judges its Body by the checks of R150. -/
theorem operate_judged (s : State) (source seq : Octet) (body : List Octet) :
    ∀ op ∈ operations source seq body,
      Judged s op.1 (bodyChecks op.1 body) (operate s (ownRequest s source seq op.1 body)) := by
  simp only [operations, List.forall_mem_cons]
  exact ⟨opIdentify_judged s body, opReadSlot_judged s body, opWriteSlot_judged s body,
    opClearSlot_judged s body, opReadProfile_judged s body, opWriteProfile_judged s body,
    opCommit_judged s body, opRetire_judged s body, opReadLine_judged s body,
    opWriteLine_judged s body, opReadRecords_judged s body, opCancel_judged s body source,
    opReadCounters_judged s body, opRestart_judged s body, by simp⟩

/-! ### The answers -/

/-- A FAULT of an operation, answered and counted (R145, R149). -/
theorem answerReply_fault (s : State) (source seq code : Octet) (body : List Octet) (reason : Reason)
    (detail : Option Octet) :
    s.answerReply (ownRequest s source seq code body) (.fault reason detail) =
      refusedOwn s source seq reason.octet detail.toList := rfl

/-- A code outside the operations is refused whatever the Body (R147). -/
theorem operate_unsupported {s : State} {t : Telegram} (h : t.code.toNat < 0x80 ∨ 0x8D < t.code.toNat) :
    operate s t = (.fault .unsupported none, s) := by
  unfold operate
  split
  case h_15 => rfl
  all_goals omega

theorem octet_eq_badArgument {r : Reason} : r.octet = 0x12 ↔ r = .badArgument := by
  cases r <;> decide

section Answers

variable {s : State} {source seq code : Octet} {body : List Octet} {checks : List (Octet × Bool)}
  {run : Reply × State}

theorem Judged.answer_of_fails (j : Judged s code checks run) {detail : Octet}
    (fails : firstOutOfRange checks = some detail) :
    run.2.answerReply (ownRequest s source seq code body) run.1 = refusedOwn s source seq 0x12 [detail] := by
  cases j with
  | badArgument h =>
    obtain rfl := Option.some.inj (fails.symm.trans h)
    exact answerReply_fault ..
  | refused passes | answered passes => exact absurd (fails.symm.trans passes) (by simp)

theorem Judged.answer_of_passes (j : Judged s code checks run) (passes : firstOutOfRange checks = none) :
    ∃ t a, run.2.answerReply (ownRequest s source seq code body) run.1 = t ∧ t.answer = .turnaround a 2 ∧
      a.dest = source ∧ a.source = s.ownAddress ∧ a.seq = seq ∧
      ((a.kind = .ans ∧ a.code = code ∧ (code ≠ 0x8C → t.trunkCount .refused = s.trunkCount .refused)) ∨
        (a.kind = .fault ∧ a.code ≠ 0x12 ∧ t = refusedOwn s source seq a.code a.body)) := by
  cases j with
  | badArgument fails => exact absurd (passes.symm.trans fails) (by simp)
  | refused _ other =>
    exact ⟨_, _, rfl, rfl, rfl, rfl, rfl, .inr ⟨rfl, fun h => other (octet_eq_badArgument.mp h), rfl⟩⟩
  | answered _ own counters =>
    refine ⟨_, _, rfl, rfl, rfl, own, rfl, .inl ⟨rfl, rfl, fun h => ?_⟩⟩
    exact congrArg (Vector.get · TrunkCounter.refused.index) (counters h)

end Answers

/-- Settles O19: each operation judges its Body by the checks of R150 (`operate_judged`), and the verdict
determines the answer. -/
theorem refusedOperationsChangeNothing : Obligations.RefusedOperationsChangeNothing := by
  intro s source seq code body ready hs hb
  refine ⟨fun outside => ?_, fun op hop => ?_⟩
  · have taken : exec (.unsupported source seq code body) s =
        .next (s.manage (ownRequest s source seq code body)) := takeOnTrunk_own ready hs hb
    rw [taken, State.manage, operate_unsupported outside]
    rfl
  · have judged := operate_judged s source seq body op hop
    have taken : exec op.2 s = .next (s.manage (ownRequest s source seq op.1 body)) :=
      (TrunkClaims.exec_operation s hop).trans (takeOnTrunk_own ready hs hb)
    refine ⟨fun detail fails => ?_, fun passes => ?_⟩
    · rw [taken, State.manage, judged.answer_of_fails fails]
    · obtain ⟨t, a, answered, rest⟩ := judged.answer_of_passes passes
      exact ⟨t, a, taken.trans (congrArg _ answered), rest⟩

end Sys2Proof.Refusals

/-! SUPPORT. The counters (R159, R167): READ_COUNTERS of each line, and one increment. -/

namespace Sys2Proof.Counters

-- Theorems elaborated side by side each hold a thread; one after another the whole text fits in memory.
set_option Elab.async false

open Sys2Proof.Machine Sys2Proof.Safety Sys2Proof.Laws Sys2Proof.TableReads Sys2Proof.LineManagement

/-! ### The reports -/

theorem toList_eq_map_get {α : Type} {n : Nat} (v : Vector α n) : v.toList = (List.finRange n).map v.get :=
  List.ext_getElem (by simp) fun i _ _ => by simp [get_eq_getElem]

/-- The counters of line 0 in the order of R159. -/
def trunkOrder : List TrunkCounter :=
  [.rxCheck, .rxTorn, .rxMalformed, .ignored, .admitted, .duplicates, .refused, .overrun, .unclaimed,
    .collects]

/-- The counters of a branch in the order of R159. -/
def branchOrder : List BranchCounter :=
  [.sent, .noAnswer, .badAnswer, .lineErrors, .strays, .rxCheck, .rxTorn, .rxMalformed, .orphans,
    .bcastSent, .bcastDropped]

theorem trunkOrder_index : trunkOrder.map TrunkCounter.index = List.finRange 10 := by decide

theorem branchOrder_index : branchOrder.map BranchCounter.index = List.finRange 11 := by decide

theorem counterReport_trunk (s : State) :
    s.counterReport 0 = trunkOrder.flatMap fun c => wordOctets (s.trunkCount c) := by
  rw [State.counterReport, if_pos rfl, toList_eq_map_get, ← trunkOrder_index, List.map_map,
    List.flatMap_map]
  rfl

theorem counterReport_branch (s : State) (b : Branch) :
    s.counterReport (b.val + 1) = branchOrder.flatMap fun c => wordOctets (s.branchCount b c) := by
  rw [State.counterReport, if_neg (by omega), toList_eq_map_get, ← branchOrder_index, List.map_map,
    List.flatMap_map, Nat.add_sub_cancel, Fin.ofNat_val_eq_self]
  rfl

theorem clearCounters_branch (s : State) (b : Branch) :
    s.clearCounters (b.val + 1) =
      { s with branchCounters := s.branchCounters.set b (Vector.replicate 11 0) } := by
  simp only [State.clearCounters, if_neg (Nat.succ_ne_zero _), Nat.add_sub_cancel, Fin.ofNat_val_eq_self]

/-! ### READ_COUNTERS -/

/-- READ_COUNTERS of a line that there is: its counters reported, and cleared where the flag says so (R159). -/
theorem opReadCounters_fitting (s : State) {line : Octet} (fits : within 0 4 line.toNat = true)
    (clear : Bool) :
    opReadCounters s [line, boolCode clear] =
      (.ans (s.counterReport line.toNat), if clear then s.clearCounters line.toNat else s) := by
  have flag : (boolCode clear = 1) = (clear = true) := by cases clear <;> simp [boolCode]
  rw [opReadCounters, withFields_of_fitting (by simp [fits, boolCode_fits])]
  simp only [flag]

theorem exec_readCounters {s : State} {source seq line : Octet} (ready : ManagementReady s)
    (hs : stationAddress source = true) (fits : within 0 4 line.toNat = true) (clear : Bool) :
    exec (.readCounters source seq [line, boolCode clear]) s =
      .next (answering (if clear then s.clearCounters line.toNat else s)
        (ownAnswer s source seq .ans 0x8C (s.counterReport line.toNat))) := by
  have taken : exec (.readCounters source seq [line, boolCode clear]) s =
      .next ((opReadCounters s [line, boolCode clear]).2.answerReply
        (ownRequest s source seq 0x8C [line, boolCode clear])
        (opReadCounters s [line, boolCode clear]).1) := takeOnTrunk_own ready hs rfl
  have own : (if clear then s.clearCounters line.toNat else s).ownAddress = s.ownAddress := by
    split <;> simp
  rw [taken, opReadCounters_fitting s fits]
  simp only [State.answerReply, own]
  rfl

theorem branchNumber_toNat (b : Branch) : (branchNumber b).toNat = b.val + 1 := octetOf_toNat (by omega)

/-- Settles O28: the report and the clearing by the kind of line, and one increment by `countUp_toNat`. -/
theorem countersReadClearedSaturating : Obligations.CountersReadClearedSaturating := by
  refine ⟨fun s source seq ready hs => ⟨fun clear => ?_, fun b clear => ?_⟩, fun s c d => ?_,
    fun s b b' c d => ?_⟩
  · rw [exec_readCounters ready hs (by decide), show (0 : Octet).toNat = 0 from rfl, counterReport_trunk]
    cases clear <;> rfl
  · rw [exec_readCounters ready hs (line_fits_of_branch b), branchNumber_toNat, counterReport_branch,
      clearCounters_branch]
    cases clear <;> rfl
  · rw [countTrunk_trunkCount]
    split
    · rename_i same
      rw [SetCompletion.countUp_toNat, same]
    · rfl
  · rw [countBranch_branchCount]
    split
    · rename_i same
      obtain ⟨rfl, rfl⟩ := same
      exact SetCompletion.countUp_toNat _
    · rfl

end Sys2Proof.Counters

/-! SUPPORT. RESTART: its answer (R161), the transmit completion of an answer (R137, R144), and what the management
restart makes of each block (R50, R97, R128, R162). -/

namespace Sys2Proof.ManagementRestart

-- Theorems elaborated side by side each hold a thread; one after another the whole text fits in memory.
set_option Elab.async false

open Sys2Proof.Machine Sys2Proof.Safety Sys2Proof.Laws Sys2Proof.StepAndResets

/-! ### The transmit completion of an answer -/

/-- The trunk port with its answer sent: the buffer EMPTY, DE0 released, the receiver in HUNT (R15, R137). -/
def answerEnded (s : State) : State :=
  { s with
    answer := .empty
    framers := s.framers.set 0 { s.framer 0 with mode := .hunt }
    driverEnable := s.driverEnable.set 0 false }

theorem answerSent_of_none {s : State} (h : ∀ a, s.answer ≠ .sending a) : s.answerSent = s := by
  cases ha : s.answer with
  | sending a => exact absurd ha (h a)
  | _ => simp only [State.answerSent, ha]

theorem answerSent_of_sending {s : State} {a : Telegram} (ha : s.answer = .sending a)
    (transmits : (s.framer 0).mode.isTransmitting = true) :
    s.answerSent = if s.pendingRestart then (answerEnded s).restartNow else answerEnded s := by
  have ended : ({ s with answer := .empty } : State).endTransmission 0 = answerEnded s := if_pos transmits
  simp only [State.answerSent, ha, ended]
  rfl

theorem answerEnded_framer (s : State) (l : Line) :
    (answerEnded s).framer l = if l = 0 then { s.framer 0 with mode := .hunt } else s.framer l :=
  setMode_framer s 0 l .hunt

/-! ### The management restart -/

/-- The other bank is STAGED again: as it stands where it was, with the LIVE bank's content elsewhere (R97). -/
def restaged (s : State) : State :=
  if s.otherRole = .staged then s else s.setBank s.live.other s.liveBank

/-- The blocks but the banks' content, as the restart leaves them (R50, R97, R128, R144, R162). -/
def cleared (s : State) : State :=
  { s with
    framers := s.framers.map fun f => { f with mode := .hunt }
    driverEnable := Vector.replicate 5 false
    answer := .empty
    slots := s.slots.map fun c => { c with record := none }
    attn := false
    otherRole := .staged
    drainCount := 0
    lines := s.lines.map BranchLine.restarted
    pendingRestart := false
    trunkCounters := Vector.replicate 10 0
    branchCounters := Vector.replicate 4 (Vector.replicate 11 0) }

theorem restartNow_eq (s : State) : s.restartNow = cleared (restaged s) := by
  cases h : s.otherRole <;> simp [State.restartNow, restaged, cleared, h]

section Restart

variable (s : State)

theorem restaged_rest :
    restaged s = { s with bankA := (restaged s).bankA, bankB := (restaged s).bankB } := by
  rw [restaged]
  split
  · rfl
  · cases s.live.other <;> rfl

theorem restaged_reads :
    (∀ l, (restaged s).framer l = s.framer l) ∧ (∀ i, (restaged s).issue i = s.issue i) ∧
    ∀ b, (restaged s).line b = s.line b := by
  rw [restaged_rest]
  exact ⟨fun _ => rfl, fun _ => rfl, fun _ => rfl⟩

theorem restaged_banks :
    (restaged s).liveBank = s.liveBank ∧
    (restaged s).otherBank = if s.otherRole = .staged then s.otherBank else s.liveBank := by
  rw [restaged]
  split
  · exact ⟨rfl, rfl⟩
  · simp [State.liveBank, State.otherBank]

theorem restarted_eq (ln : BranchLine) : ln.restarted =
    { ln with
      state := if ln.state = .off then .off else .idle
      queue := [], broadcast := none, errors := 0 } := by
  cases h : ln.state <;> simp [BranchLine.restarted, h]

theorem cleared_framer (l : Line) : (cleared s).framer l = { s.framer l with mode := .hunt } := by
  simp [cleared, State.framer]

theorem cleared_driver (l : Line) : (cleared s).driverEnable.get l = false := by simp [cleared]

theorem cleared_record (i : SlotId) : (cleared s).record i = none := by simp [cleared, State.record]

theorem cleared_issue (i : SlotId) : (cleared s).issue i = s.issue i := by simp [cleared, State.issue]

theorem cleared_line (b : Branch) : (cleared s).line b = (s.line b).restarted := by
  simp [cleared, State.line]

theorem cleared_trunkCount (c : TrunkCounter) : (cleared s).trunkCount c = 0 := by
  simp [cleared, State.trunkCount]

theorem cleared_branchCount (b : Branch) (c : BranchCounter) : (cleared s).branchCount b c = 0 := by
  simp [cleared, State.branchCount]

end Restart

/-- Settles O30: the completion ends the answer's transmission, and a pending restart then re-stages the other
bank (`restaged_banks`) and clears every block (`restartNow_eq`). -/
theorem restartFollowsItsAnswer : Obligations.RestartFollowsItsAnswer := by
  refine ⟨fun s source seq ready hs => takeOnTrunk_own ready hs rfl, fun s idle => ?_,
    fun s a running sending transmits => ?_⟩
  · exact congrArg _ (whenRunning_same (answerSent_of_none idle))
  · have taken : exec .trunkTransmitCompletion s =
        .next (if s.pendingRestart then (answerEnded s).restartNow else answerEnded s) :=
      congrArg _ ((whenRunning_of_running running _).trans (answerSent_of_sending sending transmits))
    obtain ⟨framer, issue, line⟩ := restaged_reads (answerEnded s)
    obtain ⟨liveBank, otherBank⟩ := restaged_banks (answerEnded s)
    refine ⟨fun none => by rw [taken, if_neg (by simp [none])]; rfl,
      fun pending => ⟨cleared (restaged (answerEnded s)), ?_, rfl, rfl, rfl,
        fun l => ⟨?_, cleared_driver _ l⟩, fun i => ⟨cleared_record _ i, ?_⟩, rfl, rfl, liveBank, otherBank,
        fun b => ?_, cleared_trunkCount _, cleared_branchCount _, ?_⟩⟩
    · rw [taken, if_pos pending, restartNow_eq]
    · rw [cleared_framer, framer, answerEnded_framer]
      split
      · rename_i trunk
        rw [trunk]
      · rfl
    · exact (cleared_issue _ i).trans (issue i)
    · rw [cleared_line, line, restarted_eq]
      rfl
    · rw [restaged_rest]
      rfl

end Sys2Proof.ManagementRestart

/-! SUPPORT. Hard reset and the state that it leaves: what its assertion does for each cause, and that the
values of hard reset meet every invariant, since a cleared table has nothing to keep (R186). -/

namespace Sys2Proof.ResetState

open Sys2Proof.Machine Sys2Proof.Safety Sys2Proof.Laws
open Sys2Proof.StepAndResets Sys2Proof.Configuration Sys2Proof.ControllerRanges

/-! ### The assertion of hard reset -/

/-- The two holds, the own address and the trunk rate have no part in the values of hard reset. -/
theorem hardReset_values (s : State) : AtHardResetValues s.hardReset :=
  atReset_values s.ownAddress (s.framer 0).rate

theorem pinAsserted_inReset (s : State) : s.pinAsserted.inReset = true := rfl

theorem supplyAsserted_inReset (s : State) : s.supplyAsserted.inReset = true :=
  Bool.or_true s.pinReset

theorem resetAssert_supplyLow (s : State) :
    exec (.resetAssert .supplyLow) s = .next s.supplyAsserted := rfl

/-- A pulse shorter than 1 µs is filtered. -/
theorem resetAssert_filtered (s : State) {n : Nat} (h : n < 1000) :
    exec (.resetAssert (.pinLow n)) s = .next s :=
  congrArg _ (if_pos h)

theorem resetAssert_pinLow (s : State) {n : Nat} (h : 10000 ≤ n) :
    exec (.resetAssert (.pinLow n)) s = .next s.pinAsserted :=
  congrArg _ ((if_neg (by omega)).trans (if_pos h))

/-- A pulse of 1 to 10 µs has the outcome that the free choice gives it. -/
theorem resetAssert_between (s : State) {n : Nat} (low : 1000 ≤ n) (high : n < 10000) :
    exec (.resetAssert (.pinLow n)) s =
      .next (if Config.shortPulseTaken s.freeChoices then
          ({ s with freeChoices := s.freeChoices + 1 } : State).pinAsserted
        else { s with freeChoices := s.freeChoices + 1 }) :=
  congrArg _ ((if_neg (by omega)).trans (if_neg (by omega)))

/-- Settles O3, by the cause and the length of the pulse. -/
theorem hardResetHoldsThePart : Obligations.HardResetHoldsThePart := by
  refine fun s => ⟨fun cause held => ?_, fun n h => resetAssert_filtered s h, fun n low high => ?_⟩
  · obtain rfl | ⟨n, long, rfl⟩ := held
    · exact ⟨_, resetAssert_supplyLow s, supplyAsserted_inReset s, fun _ => ⟨rfl, rfl⟩,
        fun other => absurd rfl other, hardReset_values _, rfl⟩
    · exact ⟨_, resetAssert_pinLow s long, pinAsserted_inReset s, nofun, fun _ => ⟨rfl, rfl⟩,
        hardReset_values _, rfl⟩
  · rw [resetAssert_between s low high]
    split
    · exact .inr ⟨_, rfl, rfl, hardReset_values _, rfl⟩
    · exact .inl rfl

/-! ### A cleared table -/

/-- Every slot is FREE, ATTN released, every line IDLE without a claim, and no bank drains. -/
structure Cleared (s : State) : Prop where
  record : ∀ i, s.record i = none
  attn : s.attn = false
  line : ∀ b, (s.line b).state = .idle
  otherRole : s.otherRole = .staged
  drainCount : s.drainCount = 0

theorem Cleared.of_values {s : State} (h : AtHardResetValues s) : Cleared s := by
  obtain ⟨-, -, -, -, -, table, attn, -, otherRole, -, drainCount, -, -, line, -⟩ := h
  exact ⟨fun i => (table i).1, attn, fun b => by rw [line b], otherRole, drainCount⟩

namespace Cleared

variable {s : State}

theorem record_ne (h : Cleared s) (i : SlotId) (r : Record) : s.record i ≠ some r := by
  simp [h.record i]

theorem attention (h : Cleared s) : AttentionFollowsDone s :=
  h.attn.trans ((someRecord_false_iff s _).mpr fun i r hr => absurd hr (h.record_ne i r)).symm

theorem drainCounted (h : Cleared s) : DrainCounted s := by
  have unreferred : s.activeIn s.live.other = 0 :=
    TableMoves.activeIn_eq_zero.mpr fun i r hr => absurd hr (h.record_ne i r)
  exact ⟨h.drainCount.trans unreferred.symm, by simp [h.otherRole, h.drainCount]⟩

theorem onLineIsAttempt (h : Cleared s) : OnLineIsAttempt s := fun b i => by
  simp [h.line b, LineState.record, h.record i]

theorem downLineEmpty (h : Cleared s) : DownLineEmpty s := fun b down => by
  rw [h.line b] at down; cases down

theorem noTwinRecords (h : Cleared s) : NoTwinRecords s :=
  fun i _ r _ hr => absurd hr (h.record_ne i r)

theorem stampsOrdered (h : Cleared s) : StampsOrdered s :=
  ⟨fun i r hr => absurd hr (h.record_ne i r), fun i _ r _ hr => absurd hr (h.record_ne i r)⟩

theorem capturedSlotKept (h : Cleared s) : CapturedSlotKept s :=
  fun i r hr => absurd hr (h.record_ne i r)

theorem recordFieldsPresent (h : Cleared s) : RecordFieldsPresent s :=
  fun i r hr => absurd hr (h.record_ne i r)

theorem attemptHoldsRecord (h : Cleared s) : AttemptHoldsRecord s :=
  fun _ _ i r _ _ hr => absurd hr (h.record_ne i r)

theorem deliveriesOrdered (h : Cleared s) : DeliveriesOrdered s := by
  have undelivered : ∀ i n, s.deliveryStamp i ≠ some n := fun i n => by
    simp [State.deliveryStamp, h.record i]
  exact ⟨fun i n hn => absurd hn (undelivered i n), fun i _ n hn => absurd hn (undelivered i n)⟩

end Cleared

/-! ### The state after hard reset -/

theorem atReset_sound (a : Octet) (r : RateCode) : Transmissions.Sound (State.atReset a r) :=
  Transmissions.sound_of_rest (fun l => ((atReset_values a r).1 l).2)
    (Transmissions.atReset_framer_mode a r) rfl
    fun b => by rw [(Cleared.of_values (atReset_values a r)).line b]; rfl

/-- Settles O58: the outputs and the queues are at rest, the table is cleared, and the settings and the
directories have their reset values. Of the straps only the range of the own address matters. -/
theorem resetMeetsEveryInvariant : Obligations.ResetMeetsEveryInvariant := by
  have cleared : Cleared State.reset := .of_values (atReset_values _ _)
  obtain ⟨drivers, owners⟩ := (Transmissions.sound_iff State.reset).mp (atReset_sound _ _)
  obtain ⟨queue, rest⟩ : Claimants.Resting State.reset := Claimants.resting_of_reset rfl rfl
  obtain ⟨directory, settings, errors, pendingRate, own⟩ := (ranges_iff State.reset).mpr
    ⟨atReset_configInRange _ (strapAddress_fromStraps _), linesInRange_of_reset rfl rfl⟩
  exact ⟨cleared.attention, cleared.drainCounted, drivers, owners, queue, cleared.onLineIsAttempt,
    cleared.downLineEmpty, (Claimants.noIdleClaimant_iff _).mpr rest, cleared.noTwinRecords,
    cleared.stampsOrdered, atReset_liveDirectorySound _ _, cleared.capturedSlotKept, directory,
    settings, errors, pendingRate, own, Transmissions.restartHasAnswer_of_none rfl,
    cleared.recordFieldsPresent, cleared.attemptHoldsRecord, cleared.deliveriesOrdered⟩

end Sys2Proof.ResetState

/-! SUPPORT. Completion: every command answers a next state, and the queue of waiting commands, a field of the
model's own, is kept by every event, so by every command. -/

namespace Sys2Proof.Completion

open Sys2Proof.Machine Sys2Proof.Laws Sys2Proof.StepAndResets Sys2Proof.ManagementRestart

/-- No command's meaning faults or refuses, in hard reset and where its event cannot occur either (log entry 3). -/
theorem exec_completes (c : Instr) (s : State) : ∃ t, exec c s = .next t := by
  cases c <;> exact ⟨_, rfl⟩

/-! ### The waiting commands, event by event -/

theorem leaveReset_pending (s : State) (a : BitVec 6) (r : BitVec 3) :
    (s.leaveReset a r).pending = s.pending := by
  cases h : s.inReset with
  | true => rw [leaveReset_held h]
  | false => rw [leaveReset_free h]

theorem effect_pending {s u : State} (he : Effect s u) : u.pending = s.pending := by
  cases he <;> simp

@[simp] theorem manage_pending (s : State) (t : Telegram) : (s.manage t).pending = s.pending :=
  manage_keeps (·.pending = s.pending) t (fun _ he => effect_pending he)
    (fun _ _ hu => by simpa using hu) (fun _ _ hu => by simpa using hu)

theorem trunkTake_pending (s : State) (t : Telegram) : (s.trunkTake t).pending = s.pending := by
  obtain e | e | e | ⟨-, -, -, -, d, en, -, e⟩ | ⟨-, -, -, e⟩ | ⟨-, -, -, e⟩ | ⟨-, -, -, -, e⟩ :=
    trunkTake_cases s t <;> simp [e]

theorem restartNow_pending (s : State) : s.restartNow.pending = s.pending := by
  rw [restartNow_eq, restaged_rest, cleared]

/-- The end of the answer's transmission keeps the queue, with the restart that may follow it (R161). -/
theorem answerSent_pending (s : State) : s.answerSent.pending = s.pending := by
  simp only [State.answerSent]
  split
  · split
    · rw [restartNow_pending]; simp
    · simp
  all_goals rfl

/-! ### Every command -/

/-- Every event keeps a given queue: those with a frame among the simp rules by that frame. -/
theorem keptByEvents_of_pending (q : List Instr) : KeptByEvents (·.pending = q) where
  choice _ _ h := h
  pin _ h := h
  supply _ h := h
  pinRelease _ a r h := (leaveReset_pending _ a r).trans h
  supplyRelease _ a r h := (leaveReset_pending _ a r).trans h
  trunk s t h _ _ := (trunkTake_pending s t).trans h
  sent s h := (answerSent_pending s).trans h
  turnaround _ _ h := by simpa using h
  receive _ _ _ h _ _ := h
  check _ _ h := by simpa using h
  torn _ _ h := by simpa using h
  malformed _ _ h := by simpa using h
  echo _ _ _ _ _ h _ := h
  branch _ _ _ h _ _ := by simpa using h
  send _ h := by simpa using h
  done _ _ h := by simpa using h
  mismatch _ _ h := by simpa using h
  window _ _ h := by simpa using h
  settled _ _ h := by simpa using h
  lifetime _ _ h := by simpa using h
  wait _ _ h := by simpa using h
  hold _ _ h := by simpa using h
  linger _ _ h := by simpa using h
  reseed _ h := by simpa using h

/-- Settles O2: what every event keeps, every command keeps (`exec_keeps`), here the queue as it stood. -/
theorem everyCommandCompletes : Obligations.EveryCommandCompletes := by
  intro c s
  obtain ⟨t, ht⟩ := exec_completes c s
  exact ⟨t, ht, exec_keeps (keptByEvents_of_pending s.pending) c rfl ht⟩

end Sys2Proof.Completion
